-- ==== Sys2Proof/Word.lean ====
section
/-! DEFINITION. The word types of the block: bytes of the framebuffer, the sensor frame and the bus; 16-bit host
registers; 7-bit bus addresses (00_scope.md R12, 10_state.md R23, 30_encoding.md R95). -/

namespace Sys2Proof

/-- Eight bits: a framebuffer byte, a sensor byte, a bus byte, an opcode. -/
abbrev Byte := BitVec 8

/-- Sixteen bits: a host register as the host reads or writes it (rule R21). -/
abbrev Word := BitVec 16

/-- A 7-bit device address of the two-wire bus (rule R95). -/
abbrev Addr7 := BitVec 7

end Sys2Proof
end

