-- ==== Sys2Proof/Config.lean ====
section
/-! DEFINITION. What a configuration of the block fixes (00_scope.md R8, R10), the constraints on it (R11), and the
constants the spec leaves open: parameters without a value, the oracles of R7 and the draws of R15. -/

namespace Sys2Proof

/-- The fifteen settings that `INIT_SEQ` realises, in the source's order (44_display_bus.md R236). -/
inductive Setting where
  | clockDivider | multiplexRatio | displayOffset | startLine | chargePumpEnable
  | addressingMode | segmentRemap | scanDirection | comPinConfig | contrast
  | prechargeTiming | vcomhLevel | resumeFromRam | normalPolarity | displayOn
  deriving DecidableEq, Repr

/-- The order of R236. -/
def Setting.inOrder : List Setting :=
  [.clockDivider, .multiplexRatio, .displayOffset, .startLine, .chargePumpEnable,
   .addressingMode, .segmentRemap, .scanDirection, .comPinConfig, .contrast,
   .prechargeTiming, .vcomhLevel, .resumeFromRam, .normalPolarity, .displayOn]

namespace Config

/-! The values R8 gives the parameters the source fixes; `Params` has a field for each. -/

/-- `TMR_WRAP`: the period of the 16-bit counter, in ticks (R8, R121). -/
def tmrWrap : Nat := 65536

/-- `TMR_HZ`: the tick rate, 1 MHz (R8, R9). -/
def tmrHz : Nat := 1000000

/-- `SW_NBYTES`: bytes of a single-wire frame (R8). -/
def swNbytes : Nat := 5

/-- `SW_NBITS`: bits of each of them (R8). -/
def swNbits : Nat := 8

/-- `CHUNK`: content bytes of one data transfer (R8, R98). -/
def chunk : Nat := 16

/-- `CTRL_CMD`: the control byte of a command stream (R8, R96). -/
def ctrlCmd : Byte := 0x00

/-- `CTRL_DATA`: the control byte of a data stream (R8, R96, 90_conflicts.md C1). -/
def ctrlData : Byte := 0x40

/-- The space code every font holds, the fallback glyph (R10, R67). -/
def space : Byte := 0x20

/-! Open parameters (log 8): nothing is assumed of them. -/

/-- `ADDR_PRIMARY` (R10). -/
opaque addrPrimary : Addr7

/-- What `ADDR_SECONDARY` differs by from `ADDR_PRIMARY`; 0 is read as 1, since the two are distinct (R10, R11). -/
opaque addrOffset : Addr7

/-- The bytes that encode one setting; no value is in the source (R236, 91_not_in_source.md N7). -/
opaque settingBytes : Setting → List Byte

/-- `WINDOW_SEQ` (R10, R241). -/
opaque windowSeq : List Byte

/-- The upper end of the font; a value below 0x5A is read as 0x5A (R10). -/
opaque fontTop : Byte

/-- `GLYPH(g, r, c)` (R66): the bitmaps are not in the source (N9). -/
opaque glyph : Byte → Nat → Nat → Bool

/-! Oracles (R7, log 5). -/

/-- `LINE_ENV(t)`: the level of the sensor line at tick `t` if the block does not pull it (R140). -/
opaque lineEnv : Nat → Bool

/-- `ECHO_ENV(t)`: the level of the echo line at tick `t` (R171). -/
opaque echoEnv : Nat → Bool

/-- The bus responder's answer to ready-query number `n`, to address `a` (R221). -/
opaque acknowledges : Nat → Addr7 → Bool

/-! Draws (R15, log 4, log 6): the first argument is the index of the draw. -/

/-- A duration the source does not give (R331). -/
opaque duration : Nat → Nat

/-- The overshoot of a delay, before it is brought into `0..DELAY_SLACK` (R124). -/
opaque overshoot : Nat → Nat

/-- The poll latency, before it is brought into `0..POLL_SLACK` (R126). -/
opaque latency : Nat → Nat

/-- What `TMR_ELAPSED` answers with no valid epoch (R131). -/
opaque elapsedValue : Nat → Word

/-- The epoch after a delay (R124) or a reset (R50), which the spec leaves unspecified. -/
opaque epochValue : Nat → Nat

/-- A byte of the scratch registers `RAW`, `TBUF` after a reset (R50): draw index, position. -/
opaque scratchByte : Nat → Nat → Byte

end Config

/-- The parameters of the step relation (R8, R10, R39). Times are in ticks. -/
structure Params where
  /-- `TMR_WRAP`. -/
  tmrWrap : Nat
  /-- `TMR_HZ`. -/
  tmrHz : Nat
  /-- `SW_NBYTES`. -/
  swNbytes : Nat
  /-- `SW_NBITS`. -/
  swNbits : Nat
  /-- `CHUNK`. -/
  chunk : Nat
  /-- `CTRL_CMD`. -/
  ctrlCmd : Byte
  /-- `CTRL_DATA`. -/
  ctrlData : Byte
  /-- `WIDTH`. -/
  width : Nat
  /-- `HEIGHT`, a multiple of 8. -/
  height : Nat
  /-- `SW_START_LOW`. -/
  swStartLow : Nat
  /-- `SW_START_HIGH`. -/
  swStartHigh : Nat
  /-- `SW_SAMPLE_DELAY`. -/
  swSampleDelay : Nat
  /-- `SW_TIMEOUT`. -/
  swTimeout : Nat
  /-- `SW_LOW_WAIT_BOUNDED` (R148). -/
  lowWaitBounded : Bool
  /-- `HAS_RNG` (R5). -/
  hasRng : Bool
  /-- `RNG_SETTLE`. -/
  rngSettle : Nat
  /-- `RNG_PULSE`. -/
  rngPulse : Nat
  /-- `RNG_TIMEOUT`. -/
  rngTimeout : Nat
  /-- `RNG_NUM`. -/
  rngNum : Nat
  /-- `RNG_DEN`. -/
  rngDen : Nat
  /-- `RNG_MAX_CM`. -/
  rngMaxCm : Nat
  /-- `RNG_NO_ECHO`. -/
  rngNoEcho : Word
  /-- `RNG_OUT_OF_RANGE`. -/
  rngOutOfRange : Word
  /-- `ADDR_PRIMARY`. -/
  addrPrimary : Addr7
  /-- `ADDR_SECONDARY`. -/
  addrSecondary : Addr7
  /-- `PROBE_TRIALS`. -/
  probeTrials : Nat
  /-- `INIT_SEQ`. -/
  initSeq : List Byte
  /-- `WINDOW_SEQ`. -/
  windowSeq : List Byte
  /-- `FONT_W`. -/
  fontW : Nat
  /-- `FONT_H`. -/
  fontH : Nat
  /-- `FONT_FIRST`. -/
  fontFirst : Byte
  /-- `FONT_LAST`. -/
  fontLast : Byte
  /-- `GLYPH`. -/
  glyph : Byte → Nat → Nat → Bool
  /-- `DELAY_SLACK`. -/
  delaySlack : Nat
  /-- `POLL_SLACK`. -/
  pollSlack : Nat

/-- The oracles and draws of a run (R7, R15). A statement over every `Env` is a statement over every environment. -/
structure Env where
  /-- `LINE_ENV` (R140). -/
  line : Nat → Bool
  /-- `ECHO_ENV` (R171). -/
  echo : Nat → Bool
  /-- The bus responder (R221). -/
  ack : Nat → Addr7 → Bool
  /-- Duration draws (R331). -/
  duration : Nat → Nat
  /-- Delay overshoots (R124). -/
  overshoot : Nat → Nat
  /-- Poll latencies (R126). -/
  latency : Nat → Nat
  /-- Elapsed values with no valid epoch (R131). -/
  elapsed : Nat → Word
  /-- Epochs after a delay or a reset (R124, R50). -/
  epoch : Nat → Nat
  /-- Scratch bytes after a reset (R50). -/
  scratch : Nat → Nat → Byte

/-- What can be wrong with a configuration (R11, with R8, R9, R10, R36, R94, R121 and R125; log 23). -/
inductive ConfigError where
  /-- `WIDTH` not in `1..65535`. -/
  | width
  /-- `HEIGHT` not in `8..65528` or not a multiple of 8. -/
  | height
  /-- `CHUNK = 0`, or `FB_SIZE` not a multiple of `CHUNK`. -/
  | chunks
  /-- The control bytes of commands and data are the same (30_encoding.md R94, R96). -/
  | controlBytes
  /-- The counter is not 16 bits wide or the tick not a microsecond (40_timer.md R121, R9). -/
  | counter
  /-- A frame is not five bytes of eight bits, the width of `RAW` (10_state.md R36). -/
  | frame
  /-- `SW_START_LOW` below 18000 ticks (R8). -/
  | startLowShort
  /-- A delay that could reach the wrap of the counter (R11, R125). -/
  | startLowWraps
  /-- A measured interval that could reach the wrap of the counter (R11, R125). -/
  | intervalWraps
  /-- The font range does not hold the space code or ends below `Z` (R10, R11). -/
  | font
  /-- `ADDR_PRIMARY = ADDR_SECONDARY`. -/
  | addresses
  /-- `PROBE_TRIALS = 0` (R10). -/
  | trials
  /-- `RNG_DEN = 0`: no constraint of R11; that it is refused is the model's choice, DEDUCED from 30_encoding.md R105 (c),
  by which a division by zero cannot occur (log 23). -/
  | divisor
  /-- `RNG_MAX_CM` above 65535: no constraint of R11; that it is refused is the model's choice, DEDUCED from the 16 bits of
  `RESULT`, which hold every distance up to the ceiling (10_state.md R26, log 23). -/
  | ceiling
  deriving DecidableEq, Repr

end Sys2Proof
end

