-- ==== Sys2Proof/Syntax.lean ====
section
/-! DEFINITION. The rows of spec/opcode_table.json as one inductive, the packets they are read from (a host command, a
bus transfer, a single-wire frame, a command line), and what the host can send to the block. -/

namespace Sys2Proof

/-- One constructor per row of the opcode table. The twelve commands carry no operand: they read `ARG0..2` as they stand
(30_encoding.md R90). -/
inductive Instr where
  /-- `TMR_START`, opcode 0x01 (R129). -/
  | tmrStart
  /-- `TMR_ELAPSED`, opcode 0x02 (R130). -/
  | tmrElapsed
  /-- `TMR_DELAY`, opcode 0x03 (R132). -/
  | tmrDelay
  /-- `SWS_READ`, opcode 0x10 (R142). -/
  | swsRead
  /-- `RNG_MEASURE`, opcode 0x20 (R172). -/
  | rngMeasure
  /-- `DSP_PROBE`, opcode 0x30 (R230). -/
  | dspProbe
  /-- `DSP_INIT`, opcode 0x31 (R235). -/
  | dspInit
  /-- `DSP_CLEAR`, opcode 0x32 (R192). -/
  | dspClear
  /-- `DSP_SET_PIXEL`, opcode 0x33 (R194). -/
  | dspSetPixel
  /-- `DSP_SET_CURSOR`, opcode 0x34 (R197). -/
  | dspSetCursor
  /-- `DSP_WRITE_CHAR`, opcode 0x35 (R200). -/
  | dspWriteChar
  /-- `DSP_FLUSH`, opcode 0x36 (R240). -/
  | dspFlush
  /-- `DSP_WRITE_STRING`, the pseudo-command: its codes and the values the host writes to `ARG1`, `ARG2` (R107, R204). -/
  | dspWriteString (codes : List Byte) (font color : Word)
  /-- `RESERVED`: an opcode the table of R91 does not hold (R104, R106). -/
  | reserved (op : Byte)
  /-- `BUS_CMD_TRANSFER`: address and one command byte (R97). -/
  | busCmdTransfer (a : Addr7) (c : Byte)
  /-- `BUS_DATA_TRANSFER`: address and 16 content bytes (R98). -/
  | busDataTransfer (a : Addr7) (d : List Byte)
  /-- `BUS_READY_QUERY`: the address byte alone (R99). -/
  | busReadyQuery (a : Addr7)
  /-- `SW_FRAME`: the five bytes of a frame, in line order (R101). -/
  | swFrame (h f t g k : Byte)
  deriving DecidableEq, Repr

/-- What an instruction is read from, one constructor per format of the opcode table. -/
inductive Packet where
  /-- The value of a write to `CMD` (format CMD8, R31). -/
  | cmd (w : Word)
  /-- The bytes of one bus access, address byte first (format BUS, R94). -/
  | bus (bytes : List Byte)
  /-- The bits of a single-wire frame, first on the line first (format LINE, R101). -/
  | line (bits : List Bool)
  /-- A `DSP_WRITE_STRING` line (format PSEUDO, R107). -/
  | text (codes : List Byte) (font color : Word)
  deriving DecidableEq, Repr

/-- Why a packet is no instruction. -/
inductive DecodeError where
  /-- A bus access with no address byte (R94). -/
  | noAddress
  /-- Bit 0 of the address byte is 1: the block never performs a bus read (R95). -/
  | readDirection
  /-- A control byte other than 0x00 and 0x40 (R96, R106). -/
  | controlByte
  /-- A payload length the block never sends (R100). -/
  | payloadLength
  /-- A frame that is not 40 bits (R101). -/
  | frameLength
  deriving DecidableEq, Repr

/-- What the host can do to the block (R21, R281), as the items of the model's inbox (log 1). -/
inductive HostInput where
  /-- A write of one register, whole. Index 0x0 is `CMD`: the command runs to completion (R31). -/
  | write (index : BitVec 4) (value : Word)
  /-- A read of one register (R51). -/
  | read (index : BitVec 4)
  /-- A `CMD` write carried out one row of the sequencer a step (R27, R160; log 15). -/
  | beginCmd (value : Word)
  /-- The host does nothing while one row of the sequencer, or idle time, passes (log 15). -/
  | wait
  /-- `rst` (R50, R51). -/
  | rst
  /-- A packet of another format than CMD8, run as one instruction (log 11, 12, 13). -/
  | packet (p : Packet)
  deriving DecidableEq, Repr

end Sys2Proof
end

