-- ==== Sys2Proof/WellFormed.lean ====
section
/-! DEFINITION. When an instruction is one the spec's formats can say: a reserved opcode is none of the table's, and a
data transfer carries exactly `CHUNK` bytes. -/

namespace Sys2Proof

/-- The opcodes of 30_encoding.md R91. -/
def definedOpcodes : List Byte :=
  [0x01, 0x02, 0x03, 0x10, 0x20, 0x30, 0x31, 0x32, 0x33, 0x34, 0x35, 0x36]

/-- Well-formedness, one arm per constructor. -/
def Instr.wf : Instr → Bool
  | .tmrStart => true
  | .tmrElapsed => true
  | .tmrDelay => true
  | .swsRead => true
  | .rngMeasure => true
  | .dspProbe => true
  | .dspInit => true
  | .dspClear => true
  | .dspSetPixel => true
  | .dspSetCursor => true
  | .dspWriteChar => true
  | .dspFlush => true
  | .dspWriteString _ _ _ => true
  | .reserved op => !definedOpcodes.contains op
  | .busCmdTransfer _ _ => true
  | .busDataTransfer _ d => d.length == Config.chunk
  | .busReadyQuery _ => true
  | .swFrame _ _ _ _ _ => true

end Sys2Proof
end

