-- ==== Sys2Proof/Decode.lean ====
section
/-! DEFINITION. Decoding, total on any packet and rejecting by name, and the encoder beside it, both from the formats of
30_encoding.md; the opcode table's numbering of a row's bits (`decodeTableWord`, `tableInput`). -/

namespace Sys2Proof

/-! Bits and bytes of the wires, most significant first (R68). -/

/-- The eight bits of a byte in the order they go on a wire: bit 7 first (R68). -/
def bitsOfByte (b : Byte) : List Bool :=
  (List.range 8).map fun j => b.getLsbD (7 - j)

/-- Bit `j` of a byte given the value `v`. -/
def withBit (b : Byte) (j : Nat) (v : Bool) : Byte :=
  if v then b ||| (1#8 <<< j) else b &&& ~~~(1#8 <<< j)

/-- The byte whose bits arrive in this order, first the most significant; missing bits are 0 (R103). -/
def byteOfBits (bits : List Bool) : Byte :=
  (List.range 8).foldl (fun b j => withBit b (7 - j) (bits.getD j false)) 0

/-- The address byte of a bus access, `{a, 0}` (R95). -/
def addressByte (a : Addr7) : Byte :=
  a.setWidth 8 <<< 1

/-- The device address an address byte carries (R95). -/
def addressOf (b : Byte) : Addr7 :=
  (b >>> 1).setWidth 7

/-! Decoding. -/

/-- The command an opcode selects, or the refused one (R91, R104). -/
def decodeOpcode (op : Byte) : Instr :=
  match op.toNat with
  | 0x01 => .tmrStart
  | 0x02 => .tmrElapsed
  | 0x03 => .tmrDelay
  | 0x10 => .swsRead
  | 0x20 => .rngMeasure
  | 0x30 => .dspProbe
  | 0x31 => .dspInit
  | 0x32 => .dspClear
  | 0x33 => .dspSetPixel
  | 0x34 => .dspSetCursor
  | 0x35 => .dspWriteChar
  | 0x36 => .dspFlush
  | _ => .reserved op

/-- A write of `w` to `CMD` takes `w[7:0]` as the opcode and ignores `w[15:8]` (R31). -/
def decodeCmd (w : Word) : Instr :=
  decodeOpcode (w.setWidth 8)

/-- The three shapes of a bus access (R94 to R100), for the two control bytes and the length of a chunk. -/
def decodeBus (ctrlCmd ctrlData : Byte) (chunk : Nat) : List Byte → Except DecodeError Instr
  | [] => .error .noAddress
  | b :: payload =>
    if b.getLsbD 0 then .error .readDirection else
    match payload with
    | [] => .ok (.busReadyQuery (addressOf b))
    | ctrl :: rest =>
      if ctrl = ctrlCmd then
        match rest with
        | [c] => .ok (.busCmdTransfer (addressOf b) c)
        | _ => .error .payloadLength
      else if ctrl = ctrlData then
        if rest.length = chunk then .ok (.busDataTransfer (addressOf b) rest)
        else .error .payloadLength
      else .error .controlByte

/-- A frame of 40 bit cells: five bytes, most significant bit first (R101). -/
def decodeLine (bits : List Bool) : Except DecodeError Instr :=
  if bits.length = 40 then
    .ok (.swFrame (byteOfBits (bits.take 8)) (byteOfBits ((bits.drop 8).take 8))
      (byteOfBits ((bits.drop 16).take 8)) (byteOfBits ((bits.drop 24).take 8))
      (byteOfBits ((bits.drop 32).take 8)))
  else .error .frameLength

/-- The instruction a packet holds, or why it holds none. -/
def decodeWith (ctrlCmd ctrlData : Byte) (chunk : Nat) : Packet → Except DecodeError Instr
  | .cmd w => .ok (decodeCmd w)
  | .bus bytes => decodeBus ctrlCmd ctrlData chunk bytes
  | .line bits => decodeLine bits
  | .text codes font color => .ok (.dspWriteString codes font color)

/-- The decoder of the formats as R96 to R98 write them. -/
def decode (pk : Packet) : Except DecodeError Instr :=
  decodeWith Config.ctrlCmd Config.ctrlData Config.chunk pk

/-- The decoder of a configuration (R39). -/
def decodeFor (p : Params) (pk : Packet) : Except DecodeError Instr :=
  decodeWith p.ctrlCmd p.ctrlData p.chunk pk

/-! Encoding. -/

/-- The opcode of a host command (R91); none for the rows that are no host command. -/
def opcode? : Instr → Option Byte
  | .tmrStart => some 0x01
  | .tmrElapsed => some 0x02
  | .tmrDelay => some 0x03
  | .swsRead => some 0x10
  | .rngMeasure => some 0x20
  | .dspProbe => some 0x30
  | .dspInit => some 0x31
  | .dspClear => some 0x32
  | .dspSetPixel => some 0x33
  | .dspSetCursor => some 0x34
  | .dspWriteChar => some 0x35
  | .dspFlush => some 0x36
  | .dspWriteString _ _ _ => none
  | .reserved op => some op
  | .busCmdTransfer _ _ => none
  | .busDataTransfer _ _ => none
  | .busReadyQuery _ => none
  | .swFrame _ _ _ _ _ => none

/-- The packet of an instruction: the `CMD` value with `CMD[15:8] = 0`, or the wire bytes or bits of its format. -/
def encode : Instr → Packet
  | .tmrStart => .cmd 0x0001
  | .tmrElapsed => .cmd 0x0002
  | .tmrDelay => .cmd 0x0003
  | .swsRead => .cmd 0x0010
  | .rngMeasure => .cmd 0x0020
  | .dspProbe => .cmd 0x0030
  | .dspInit => .cmd 0x0031
  | .dspClear => .cmd 0x0032
  | .dspSetPixel => .cmd 0x0033
  | .dspSetCursor => .cmd 0x0034
  | .dspWriteChar => .cmd 0x0035
  | .dspFlush => .cmd 0x0036
  | .dspWriteString codes font color => .text codes font color
  | .reserved op => .cmd (op.setWidth 16)
  | .busCmdTransfer a c => .bus [addressByte a, Config.ctrlCmd, c]
  | .busDataTransfer a d => .bus (addressByte a :: Config.ctrlData :: d)
  | .busReadyQuery a => .bus [addressByte a]
  | .swFrame h f t g k => .line ([h, f, t, g, k].flatMap bitsOfByte)

/-! Command lines as host accesses (R107, R108). -/

/-- The writes of a command line: its operands to `ARG0`, `ARG1`, `ARG2` in this order, then its opcode to `CMD`
(R108). Operands past the third are not a command line's. -/
def commandLine (op : Byte) (operands : List Word) : List HostInput :=
  ([2#4, 3#4, 4#4].zip operands).map (fun x => .write x.1 x.2) ++ [.write 0#4 (op.setWidth 16)]

/-- The accesses `DSP_WRITE_STRING codes, font, color` expands to (R107): one `DSP_WRITE_CHAR` line per code, in order. -/
def stringLines (codes : List Byte) (font color : Word) : List HostInput :=
  codes.flatMap fun ch => commandLine 0x35 [ch.setWidth 16, font, color]

/-! The opcode table's numbering of bits: the row's pattern is read as one number whose most significant byte goes on
the wire first (98_reader.md; log 14). -/

/-- The `n` bytes of `w`, most significant first. -/
def bytesOf : Nat → Nat → List Byte
  | 0, _ => []
  | n + 1, w => BitVec.ofNat 8 (w / 256 ^ n) :: bytesOf n w

/-- The packet a table row's bits stand for. Eight bits are a host command if R91 lists them or bit 0 is 1, and else the
address byte of a ready-query (log 14); forty bits are a frame; longer ones are bus transfers. -/
def tablePacket (nbits w : Nat) : Packet :=
  if nbits = 8 then
    if definedOpcodes.contains (BitVec.ofNat 8 w) || w % 2 == 1 then .cmd (BitVec.ofNat 16 (w % 256))
    else .bus (bytesOf 1 w)
  else if nbits = 40 then .line ((bytesOf 5 w).flatMap bitsOfByte)
  else .bus (bytesOf (nbits / 8) w)

/-- The instruction the decoder reads from a table row's bits; none where it refuses. -/
def decodeTableWord (nbits w : Nat) : Option Instr :=
  match decode (tablePacket nbits w) with
  | .ok i => some i
  | .error _ => none

/-- The host input that delivers a packet: a `CMD` write for a host command. -/
def inputOf : Packet → HostInput
  | .cmd w => .write 0#4 w
  | .bus bytes => .packet (.bus bytes)
  | .line bits => .packet (.line bits)
  | .text codes font color => .packet (.text codes font color)

/-- The host input that delivers a table row's bits. -/
def tableInput (nbits w : Nat) : HostInput :=
  inputOf (tablePacket nbits w)

end Sys2Proof
end

