-- ==== Sys2Proof/Machine/State.lean ====
section
/-! DEFINITION. The state of the block, all of it (10_state.md R20), as plain data; the reasons a step can stop; the
state after reset (R50). -/

namespace Sys2Proof.Machine

/-- Five raw bytes in the source's order (00_scope.md R17, 10_state.md R32). -/
structure Reading where
  /-- Byte 0. -/
  humidityInt : Byte
  /-- Byte 1. -/
  humidityFrac : Byte
  /-- Byte 2. -/
  tempInt : Byte
  /-- Byte 3. -/
  tempFrac : Byte
  /-- Byte 4. -/
  checksum : Byte
  deriving DecidableEq, Repr

/-- An event of the two-wire bus (44_display_bus.md R220). -/
inductive BusEvent where
  /-- `READY(a, r)`: a ready-query to `a`, answered `ack` or not. -/
  | ready (a : Addr7) (ack : Bool)
  /-- `WRITE(a, payload)`: a write transfer, control byte first. -/
  | write (a : Addr7) (payload : List Byte)
  deriving DecidableEq, Repr

/-- The sequencer position `SEQ`: the phases of R28 with their loop indices. -/
inductive Seq where
  /-- Between commands. -/
  | idle
  /-- `TMR_WAIT`. -/
  | tmrWait
  /-- `SW_START_LOW`. -/
  | swStartLow
  /-- `SW_START_HIGH`. -/
  | swStartHigh
  /-- `SW_RESP_LOW1`. -/
  | swRespLow1
  /-- `SW_RESP_HIGH`. -/
  | swRespHigh
  /-- `SW_RESP_LOW2`. -/
  | swRespLow2
  /-- `SW_BIT_WAIT_HIGH`, byte index, bit index, the byte being assembled. -/
  | swBitWaitHigh (k i : Nat) (b : Byte)
  /-- `SW_BIT_DELAY`. -/
  | swBitDelay (k i : Nat) (b : Byte)
  /-- `SW_BIT_SAMPLE`. -/
  | swBitSample (k i : Nat) (b : Byte)
  /-- `SW_BIT_WAIT_LOW`. -/
  | swBitWaitLow (k i : Nat) (b : Byte)
  /-- `SW_CHECK`. -/
  | swCheck
  /-- `RNG_SETTLE`. -/
  | rngSettle
  /-- `RNG_PULSE`. -/
  | rngPulse
  /-- `RNG_WAIT_RISE`. -/
  | rngWaitRise
  /-- `RNG_WAIT_FALL`, with the recorded start tick `ts`. -/
  | rngWaitFall (ts : Nat)
  /-- `RNG_CONVERT`, with the elapsed ticks `e`. -/
  | rngConvert (e : Nat)
  /-- `DSP_PROBE_P`: inside `DSP_INIT` or not, the secondary address or the primary, trial index. -/
  | dspProbe (init second : Bool) (n : Nat)
  /-- `DSP_CONFIG`, index into `INIT_SEQ`. -/
  | dspConfig (q : Nat)
  /-- `DSP_CLEARING`, inside `DSP_INIT` or not. -/
  | dspClearing (init : Bool)
  /-- `DSP_WINDOW`, index into `WINDOW_SEQ`. -/
  | dspWindow (q : Nat)
  /-- `DSP_CHUNK`, chunk index. -/
  | dspChunk (n : Nat)
  /-- `DSP_GLYPH`, row and column. -/
  | dspGlyph (r c : Nat)
  deriving DecidableEq, Repr

/-- Everything the spec gives the block (R20, R36), the model-only objects it names (R38), and the model's own three
fields `draws`, `rdata`, `inbox` (log 4, 18, 1). -/
structure State where
  /-- `ARG0` (R25). -/
  arg0 : Word
  /-- `ARG1` (R25). -/
  arg1 : Word
  /-- `ARG2` (R25). -/
  arg2 : Word
  /-- `RESULT` (R26). -/
  result : Word
  /-- `ST_OK`, `STATUS` bit 0 (R29). -/
  stOk : Bool
  /-- `ST_ILL`, `STATUS` bit 1 (R29). -/
  stIll : Bool
  /-- `BOUND_VALID`, `STATUS` bit 2 and `DSP_ADDR` bit 7, one flag (R30, R35). -/
  boundValid : Bool
  /-- `EPOCH_VALID`, `STATUS` bit 3 (R29). -/
  epochValid : Bool
  /-- `SW_DATA0..4` (R32). -/
  swData : Reading
  /-- `SW_TEMP` (R33). -/
  swTemp : Byte
  /-- `CUR_X` (R34). -/
  curX : Word
  /-- `CUR_Y` (R34). -/
  curY : Word
  /-- `BOUND_ADDR` (R35). -/
  boundAddr : Addr7
  /-- `FB` (R60), canonical: addresses rise, no listed byte is 0x00, an unlisted one reads 0x00 (log 16). -/
  fb : List Host.Cell
  /-- `EPOCH` (R36, R121). -/
  epoch : Nat
  /-- `RAW[0..4]` (R36). -/
  raw : Reading
  /-- `SW_OE` (R36, R141). -/
  swOe : Bool
  /-- `TRIG` (R36, R171). -/
  trig : Bool
  /-- `SEQ` (R27). -/
  seq : Seq
  /-- `TBUF[0..16]` (R36, R240). -/
  tbuf : List Byte
  /-- `T`, model time in ticks (R38, R120). -/
  time : Nat
  /-- `TRACE`, oldest event first (R38, R220). -/
  trace : List BusEvent
  /-- The model's own: index of the next draw (log 4). -/
  draws : Nat
  /-- The model's own: what the last host read returned, port `h_rdata` (log 18). -/
  rdata : Word
  /-- The model's own: the host accesses still to come (log 1). -/
  inbox : List HostInput
  deriving DecidableEq, Repr

/-- Why the machine stops with a fault. -/
inductive Fault where
  /-- Raised by `execBusDataTransfer` on a data transfer that does not carry exactly `CHUNK` bytes, which no packet decodes
  to: the spec says nothing else is ever sent (R100). Safe: the model stops where the block has no behaviour (log 21). -/
  | transferLength
  deriving DecidableEq, Repr

/-- Why the machine gives no meaning. -/
inductive Refusal where
  /-- Raised by `exec` for an instruction that has no meaning yet. Safe: nothing is proved of it. -/
  | notModelled (mnemonic : String)
  /-- Raised by `step` for a packet that is none of the spec's formats (R96, R100, R101). Safe: the block never produces or
  receives one (log 11). -/
  | undecodable (e : DecodeError)
  /-- Raised by the step of a configured machine whose parameters break a constraint (R11). Safe: no rule speaks of such a
  configuration (log 23). -/
  | configuration (e : ConfigError)
  deriving DecidableEq, Repr

/-- Five zero bytes. -/
def Reading.zero : Reading :=
  ⟨0, 0, 0, 0, 0⟩

/-- The state after reset (R50, R300): every value is the spec's, but for `epoch`, `raw`, `tbuf`, which R50 leaves
unspecified (log 2), and the origin of the model-only fields (log 1, 3, 4, 18). -/
def State.reset : State where
  arg0 := 0
  arg1 := 0
  arg2 := 0
  result := 0
  stOk := false
  stIll := false
  boundValid := false
  epochValid := false
  swData := Reading.zero
  swTemp := 0
  curX := 0
  curY := 0
  boundAddr := 0
  fb := []
  epoch := 0
  raw := Reading.zero
  swOe := false
  trig := false
  seq := .idle
  tbuf := List.replicate 17 0
  time := 0
  trace := []
  draws := 0
  rdata := 0
  inbox := []

end Sys2Proof.Machine
end

