-- ==== Sys2Proof/Machine/Setup.lean ====
section
/-! DEFINITION. The reference configuration (00_scope.md R8, R10), its environment, the geometry that follows from a
configuration (R11, 20_memory.md R60), and the check a configuration must pass (R11). -/

namespace Sys2Proof.Machine

/-- `ADDR_SECONDARY` of the reference configuration, never equal to `ADDR_PRIMARY` (R10, log 8). -/
def addrSecondary : Addr7 :=
  Config.addrPrimary ^^^ (if Config.addrOffset = 0 then 1 else Config.addrOffset)

/-- `INIT_SEQ`: the fifteen settings' encodings in the source's order (R236). -/
def initSeq : List Byte :=
  Setting.inOrder.flatMap Config.settingBytes

/-- `FONT_LAST`, at least 0x5A (R10). -/
def fontLast : Byte :=
  if Config.fontTop < 0x5A then 0x5A else Config.fontTop

/-- The reference configuration: R8's values, R10's defaults, and an open constant where R10 has no value of the source
or of the spec's own (log 7, 8, 9). -/
def params : Params where
  tmrWrap := Config.tmrWrap
  tmrHz := Config.tmrHz
  swNbytes := Config.swNbytes
  swNbits := Config.swNbits
  chunk := Config.chunk
  ctrlCmd := Config.ctrlCmd
  ctrlData := Config.ctrlData
  width := 128
  height := 64
  swStartLow := 18000
  swStartHigh := 30
  swSampleDelay := 40
  swTimeout := 100
  lowWaitBounded := true
  hasRng := true
  rngSettle := 2
  rngPulse := 10
  rngTimeout := 30000
  rngNum := 17
  rngDen := 1000
  rngMaxCm := 20
  rngNoEcho := 0
  rngOutOfRange := 999
  addrPrimary := Config.addrPrimary
  addrSecondary := addrSecondary
  probeTrials := 1
  initSeq := initSeq
  windowSeq := Config.windowSeq
  fontW := 7
  fontH := 10
  fontFirst := Config.space
  fontLast := fontLast
  glyph := Config.glyph
  delaySlack := 0
  pollSlack := 0

/-- The environment of the machine: the oracles and draws under no law (R7, R15). -/
def env : Env where
  line := Config.lineEnv
  echo := Config.echoEnv
  ack := Config.acknowledges
  duration := Config.duration
  overshoot := Config.overshoot
  latency := Config.latency
  elapsed := Config.elapsedValue
  epoch := Config.epochValue
  scratch := Config.scratchByte

/-- `FB_SIZE = WIDTH * (HEIGHT / 8)` (R11, R60). -/
def fbSize (p : Params) : Nat :=
  p.width * (p.height / 8)

/-- The number of data transfers of a flush, `FB_SIZE / CHUNK` (R242). -/
def chunkCount (p : Params) : Nat :=
  fbSize p / p.chunk

/-- The error, where the constraint does not hold. -/
def errorUnless (holds : Bool) (e : ConfigError) : List ConfigError :=
  if holds then [] else [e]

/-- Every constraint of R11 that a configuration breaks, and those the model adds by its own choice, DEDUCED from R8, R9,
R10, R26, R36, R94, R105, R121 and R125: among them `RNG_DEN` not 0, by which R105 (c) divides (log 23). -/
def configErrors (p : Params) : List ConfigError :=
  errorUnless (1 ≤ p.width && p.width ≤ 65535) .width ++
  errorUnless (8 ≤ p.height && p.height ≤ 65528 && p.height % 8 == 0) .height ++
  errorUnless (1 ≤ p.chunk && fbSize p % p.chunk == 0) .chunks ++
  errorUnless (p.ctrlCmd != p.ctrlData) .controlBytes ++
  errorUnless (p.tmrWrap == Config.tmrWrap && p.tmrHz == Config.tmrHz) .counter ++
  errorUnless (p.swNbytes == Config.swNbytes && p.swNbits == Config.swNbits) .frame ++
  errorUnless (18000 ≤ p.swStartLow) .startLowShort ++
  errorUnless (p.swStartLow + p.delaySlack < p.tmrWrap && p.swStartHigh ≤ p.swStartLow &&
    p.swSampleDelay ≤ p.swStartLow && p.rngSettle ≤ p.swStartLow && p.rngPulse ≤ p.swStartLow) .startLowWraps ++
  errorUnless (p.rngTimeout * 2 + p.pollSlack < p.tmrWrap && p.swTimeout ≤ p.rngTimeout * 2) .intervalWraps ++
  errorUnless (p.fontFirst ≤ Config.space && Config.space ≤ p.fontLast && 0x5A#8 ≤ p.fontLast) .font ++
  errorUnless (p.addrPrimary != p.addrSecondary) .addresses ++
  errorUnless (1 ≤ p.probeTrials) .trials ++
  errorUnless (1 ≤ p.rngDen) .divisor ++
  errorUnless (p.rngMaxCm ≤ 65535) .ceiling

/-- A configuration is taken when it breaks no constraint and refused otherwise (R11). -/
def configure (p : Params) : Except ConfigError Params :=
  match configErrors p with
  | [] => .ok p
  | e :: _ => .error e

end Sys2Proof.Machine
end

