-- ==== Sys2Proof/Machine/Flags.lean ====
section
/-! DEFINITION. Flag values: the bytes software reads them in (10_state.md R29, R30, R35) and the tests that set them
(30_encoding.md R103). -/

namespace Sys2Proof.Machine

/-- `STATUS`: bit 0 `ST_OK`, bit 1 `ST_ILL`, bit 2 `BOUND_VALID`, bit 3 `EPOCH_VALID`, bits 7:4 zero (R29). -/
def statusByte (s : State) : Byte :=
  0#4 ++ BitVec.ofBool s.epochValid ++ BitVec.ofBool s.boundValid ++ BitVec.ofBool s.stIll ++ BitVec.ofBool s.stOk

/-- `DSP_ADDR`: bit 7 `BOUND_VALID`, bits 6:0 `BOUND_ADDR`, which reads 0 while unbound (R23, R35). -/
def dspAddrByte (s : State) : Byte :=
  BitVec.ofBool s.boundValid ++ (if s.boundValid then s.boundAddr else 0#7)

/-- The checksum test of `SWS_READ`: byte 4 equals the exact sum of bytes 0 to 3 reduced modulo 256 (R103, R149). -/
def checksumHolds (r : Reading) : Bool :=
  r.checksum.toNat ==
    (r.humidityInt.toNat + r.humidityFrac.toNat + r.tempInt.toNat + r.tempFrac.toNat) % 256

end Sys2Proof.Machine
end

