-- ==== Sys2Proof/Machine/Operands.lean ====
section
/-! DEFINITION. The operand fields of the commands (30_encoding.md R92) and the values assembled from them (R103). -/

namespace Sys2Proof.Machine

/-- `us = ARG0[15:0]` of `TMR_DELAY`. -/
def operandUs (s : State) : Nat :=
  s.arg0.toNat

/-- `x = ARG0[15:0]` of `DSP_SET_PIXEL` and `DSP_SET_CURSOR`. -/
def operandX (s : State) : Word :=
  s.arg0

/-- `y = ARG1[15:0]` of `DSP_SET_PIXEL` and `DSP_SET_CURSOR`. -/
def operandY (s : State) : Word :=
  s.arg1

/-- `color = ARG2[0]`; the other bits are ignored. -/
def operandColor (s : State) : Bool :=
  s.arg2.getLsbD 0

/-- `ch = ARG0[7:0]` of `DSP_WRITE_CHAR`. -/
def operandCh (s : State) : Byte :=
  s.arg0.setWidth 8

/-- `font = ARG1[15:0]` of `DSP_WRITE_CHAR`. -/
def operandFont (s : State) : Word :=
  s.arg1

/-- The glyph code: `ch` if the font holds it, else space (20_memory.md R67). -/
def glyphCode (p : Params) (ch : Byte) : Byte :=
  if p.fontFirst ≤ ch ∧ ch ≤ p.fontLast then ch else Config.space

/-- The framebuffer byte of pixel `(x, y)` (20_memory.md R61). -/
def pixelIndex (p : Params) (x y : Nat) : Nat :=
  x + (y / 8) * p.width

/-- The bit of pixel `(x, y)` within its byte (20_memory.md R61). -/
def pixelBit (y : Nat) : Nat :=
  y % 8

end Sys2Proof.Machine
end

