-- ==== Sys2Proof/Machine/Ops.lean ====
section
/-! DEFINITION. The named operations every meaning is written in: the framebuffer, the host registers, the timer and the
waits, the lines, the bus, the three ends of a command, and reset. -/

namespace Sys2Proof.Machine

/-! ## The framebuffer as a list of cells (20_memory.md R60, R62; log 16) -/

/-- The byte at address `i`; an unlisted one reads 0x00, its value at reset (R50). -/
def Memory.read : List Host.Cell → Nat → Byte
  | [], _ => 0
  | (a, b) :: m, i => if i = a then b else Memory.read m i

/-- The memory without byte `i`, which then reads 0x00. -/
def Memory.erase (i : Nat) (m : List Host.Cell) : List Host.Cell :=
  m.filter fun c => decide (c.1 ≠ i)

/-- A cell put before the first one with a higher address. -/
def Memory.insert (i : Nat) (v : Byte) : List Host.Cell → List Host.Cell
  | [] => [(i, v)]
  | (a, b) :: m => if i < a then (i, v) :: (a, b) :: m else (a, b) :: Memory.insert i v m

/-- The memory with byte `i` set to `v`; writing what an unlisted byte reads as removes the entry. -/
def Memory.write (m : List Host.Cell) (i : Nat) (v : Byte) : List Host.Cell :=
  if v = 0 then Memory.erase i m else Memory.insert i v (Memory.erase i m)

/-- The memory with every byte below `n` zero. -/
def Memory.clear (n : Nat) (m : List Host.Cell) : List Host.Cell :=
  m.filter fun c => decide (n ≤ c.1)

/-- The canonical form: every address at least `lo`, addresses strictly rising, no listed byte 0x00. -/
def Memory.wfFrom (lo : Nat) : List Host.Cell → Bool
  | [] => true
  | (a, b) :: m => decide (lo ≤ a) && b != 0 && Memory.wfFrom (a + 1) m

/-- The canonical form of a memory. -/
def Memory.wf (m : List Host.Cell) : Bool :=
  Memory.wfFrom 0 m

/-- Every listed address exists: it is below `n` (R60, R62). -/
def Memory.within (n : Nat) (m : List Host.Cell) : Bool :=
  m.all fun c => decide (c.1 < n)

/-- `MemRead(i, 1)` (R62). -/
def fbRead (s : State) (i : Nat) : Byte :=
  Memory.read s.fb i

/-- `MemWrite(i, 1, v)` (R62). -/
def fbWrite (i : Nat) (v : Byte) (s : State) : State :=
  { s with fb := Memory.write s.fb i v }

/-- `for i in 0 .. FB_SIZE - 1: MemWrite(i, 1, 0x00)` (43_display_framebuffer.md R192). -/
def fbClear (p : Params) (s : State) : State :=
  { s with fb := Memory.clear (fbSize p) s.fb }

/-- The pixel at column `x`, row `y`: bit `y mod 8` of byte `x + (y div 8) * WIDTH` (R61). -/
def pixelAt (p : Params) (s : State) (x y : Nat) : Bool :=
  (fbRead s (pixelIndex p x y)).getLsbD (pixelBit y)

/-- `set_pixel(x, y, color)`, silently ignored out of bounds (R194, R195). -/
def setPixel (p : Params) (x y : Nat) (color : Bool) (s : State) : State :=
  if p.width ≤ x ∨ p.height ≤ y then s
  else fbWrite (pixelIndex p x y) (withBit (fbRead s (pixelIndex p x y)) (pixelBit y) color) s

/-! ## Host registers (10_state.md R23, R51) -/

/-- What a host read of register `index` returns; a narrow register reads with zeros above (R23). -/
def regRead (s : State) (index : BitVec 4) : Word :=
  match index.toNat with
  | 0x1 => (statusByte s).setWidth 16
  | 0x2 => s.arg0
  | 0x3 => s.arg1
  | 0x4 => s.arg2
  | 0x5 => s.result
  | 0x6 => s.swData.humidityInt.setWidth 16
  | 0x7 => s.swData.humidityFrac.setWidth 16
  | 0x8 => s.swData.tempInt.setWidth 16
  | 0x9 => s.swData.tempFrac.setWidth 16
  | 0xA => s.swData.checksum.setWidth 16
  | 0xB => s.swTemp.setWidth 16
  | 0xC => s.curX
  | 0xD => s.curY
  | 0xE => (dspAddrByte s).setWidth 16
  | _ => 0

/-- A host write of a register other than `CMD`: the operand registers take it, every other ignores it (R23, R51). -/
def regWrite (index : BitVec 4) (v : Word) (s : State) : State :=
  match index.toNat with
  | 0x2 => { s with arg0 := v }
  | 0x3 => { s with arg1 := v }
  | 0x4 => { s with arg2 := v }
  | _ => s

/-- A host read: the value is handed back on `h_rdata` and nothing else changes (R51, log 18). -/
def hostRead (index : BitVec 4) (s : State) : State :=
  { s with rdata := regRead s index }

/-- The output ports of R22 a state determines: `h_ready`, `h_rdata`, `sw_drive_low`, `trig_out`. -/
def ports (s : State) : Bool × Word × Bool × Bool :=
  (s.seq == .idle, s.rdata, s.swOe, s.trig)

/-! ## Time, the counter and the delays (40_timer.md) -/

/-- A duration the source does not give passes (70_reset_and_hazards.md R331). -/
def lapse (e : Env) (s : State) : State :=
  { s with time := s.time + e.duration s.draws, draws := s.draws + 1 }

/-- The counter at tick `t` for an epoch: `(t - epoch) mod TMR_WRAP` (R121, R123). -/
def counterAt (p : Params) (epoch t : Nat) : Nat :=
  (t + (p.tmrWrap - epoch % p.tmrWrap)) % p.tmrWrap

/-- `tmr_elapsed()` (R123). -/
def elapsed (p : Params) (s : State) : Nat :=
  counterAt p s.epoch s.time

/-- `tmr_start()` (R122). -/
def tmrStart (s : State) : State :=
  { s with epoch := s.time }

/-- The overshoot of a delay, a draw in `0..DELAY_SLACK`, after which the epoch is unspecified (R124, log 10). -/
def overshoot (p : Params) (e : Env) (s : State) : State :=
  { s with time := s.time + e.overshoot s.draws % (p.delaySlack + 1), epoch := e.epoch s.draws, draws := s.draws + 1 }

/-- `delay(n)` (R124). -/
def delay (p : Params) (e : Env) (n : Nat) (s : State) : State :=
  overshoot p e { s with time := s.time + n }

/-- The poll latency, a draw in `0..POLL_SLACK` (R126). -/
def latency (p : Params) (e : Env) (s : State) : State :=
  { s with time := s.time + e.latency s.draws % (p.pollSlack + 1), draws := s.draws + 1 }

/-- The polling loop of R126 from tick `t`: sample the line, then test the budget, then let one tick pass. Answers whether
the level was met, and the tick of the last sample. The last argument bounds the number of samples. -/
def scan (p : Params) (src : Nat → Bool) (v : Bool) (epoch budget : Nat) : Nat → Nat → Bool × Nat
  | 0, t => (false, t)
  | n + 1, t =>
    if src t = v then (true, t)
    else if budget ≤ counterAt p epoch t then (false, t)
    else scan p src v epoch budget n (t + 1)

/-- `wait_level_until(src, v, E)` (R126): true is `OK`, false is `TIMEOUT`. The counter reaches `E` within `E + 1`
samples. -/
def waitLevelUntil (p : Params) (e : Env) (src : Nat → Bool) (v : Bool) (budget : Nat) (s : State) : Bool × State :=
  match scan p src v s.epoch budget (budget + 1) s.time with
  | (true, t) => (true, latency p e { s with time := t })
  | (false, t) => (false, { s with time := t })

/-- `wait_level(src, v, B)` (R126). -/
def waitLevel (p : Params) (e : Env) (src : Nat → Bool) (v : Bool) (budget : Nat) (s : State) : Bool × State :=
  waitLevelUntil p e src v budget (tmrStart s)

/-! ## The sensor line (41_single_wire.md R141) -/

/-- `SW_LINE(t)`: 0 while the block pulls the line, else the environment's level. -/
def swLine (e : Env) (s : State) (t : Nat) : Bool :=
  if s.swOe then false else e.line t

/-! ## The ends of a command (60_exceptions.md R262, 30_encoding.md R104)

The block has no traps (R261): what an exception is elsewhere is here one of these ends. Each is followed by the
duration draw of R331. -/

/-- The flags, `SEQ` and the duration draw at the end of a command. -/
def finish (e : Env) (ok ill : Bool) (s : State) : State :=
  lapse e { s with stOk := ok, stIll := ill, seq := .idle }

/-- `succeed`. -/
def succeed (e : Env) (s : State) : State :=
  finish e true false s

/-- `fail`. -/
def fail (e : Env) (s : State) : State :=
  finish e false false s

/-- `refuse`: `ST_ILL <- 1`, `ST_OK <- 0`, no other state change (R104). -/
def refuse (e : Env) (s : State) : State :=
  finish e false true s

/-! ## The bus (44_display_bus.md R221 to R224) -/

/-- `bus_ready(a)`: asks the responder, records the event, takes a draw of time (R221, R227). -/
def busReady (e : Env) (a : Addr7) (s : State) : Bool × State :=
  (e.ack s.draws a, lapse e { s with trace := s.trace ++ [.ready a (e.ack s.draws a)] })

/-- `bus_write(a, payload)`: records the event, does not examine the acknowledge, takes a draw of time (R222, R227). -/
def busWrite (e : Env) (a : Addr7) (payload : List Byte) (s : State) : State :=
  lapse e { s with trace := s.trace ++ [.write a payload] }

/-- `send_cmd(c)` (R224). -/
def sendCmd (p : Params) (e : Env) (c : Byte) (s : State) : State :=
  busWrite e s.boundAddr [p.ctrlCmd, c] s

/-- `TBUF` filled with the control byte and the content, then the data transfer of it to `a` (R224, R240). -/
def sendData (p : Params) (e : Env) (a : Addr7) (content : List Byte) (s : State) : State :=
  busWrite e a (p.ctrlData :: content) { s with tbuf := p.ctrlData :: content }

/-- The bytes of an event on the wire: address byte, then the payload (R95, R220). -/
def wireBytes : BusEvent → List Byte
  | .ready a _ => [addressByte a]
  | .write a payload => addressByte a :: payload

/-- A symbol of the two-wire bus (R226, general knowledge; log 20). -/
inductive WireSymbol where
  /-- Data falls while the clock is high. -/
  | start
  /-- One data bit. -/
  | bit (v : Bool)
  /-- The ninth clock, in which the receiver may acknowledge. -/
  | ackSlot
  /-- Data rises while the clock is high. -/
  | stop
  deriving DecidableEq, Repr

/-- The symbols of an event: start, each byte most significant bit first with its acknowledge slot, stop (R226). -/
def wireSymbols (ev : BusEvent) : List WireSymbol :=
  .start :: (wireBytes ev).flatMap (fun b => (bitsOfByte b).map .bit ++ [.ackSlot]) ++ [.stop]

/-! ## The raw frame (41_single_wire.md R145, R150) -/

/-- `RAW[k] <- b`. -/
def putRaw (k : Nat) (b : Byte) (r : Reading) : Reading :=
  match k with
  | 0 => { r with humidityInt := b }
  | 1 => { r with humidityFrac := b }
  | 2 => { r with tempInt := b }
  | 3 => { r with tempFrac := b }
  | 4 => { r with checksum := b }
  | _ => r

/-- `SW_DATA0..4 <- RAW[0..4]` and `SW_TEMP <- RAW[2]` (R150). -/
def commitReading (s : State) : State :=
  { s with swData := s.raw, swTemp := s.raw.tempInt }

/-! ## Reset (R50, R51, R300) -/

/-- `rst`: the reset state of R50, with `T`, `TRACE` (R38), the draw index and the host's accesses kept and the
unspecified scratch free (log 17). -/
def hardReset (p : Params) (e : Env) (s : State) : State :=
  { State.reset with
    epoch := e.epoch s.draws
    raw := ⟨e.scratch s.draws 0, e.scratch s.draws 1, e.scratch s.draws 2, e.scratch s.draws 3, e.scratch s.draws 4⟩
    tbuf := (List.range (1 + p.chunk)).map fun j => e.scratch s.draws (5 + j)
    time := s.time
    trace := s.trace
    draws := s.draws + 1
    inbox := s.inbox }

end Sys2Proof.Machine
end

