-- ==== Sys2Proof/Machine/Bus.lean ====
section
/-! DEFINITION. The commands that use the two-wire bus (44_display_bus.md R230 to R245), the wire formats run as single
accesses (30_encoding.md R97 to R99, log 11), and the reserved opcodes (R104, R106). -/

namespace Sys2Proof.Machine

/-- At most `n` ready-queries to `a`; the first acknowledge binds (R230, R231). -/
def queryTrials (e : Env) (a : Addr7) : Nat → State → Bool × State
  | 0, s => (false, s)
  | n + 1, s =>
    match busReady e a s with
    | (true, s1) => (true, { s1 with boundValid := true, boundAddr := a })
    | (false, s1) => queryTrials e a n s1

/-- `probe()`: all trials of the primary address before the first of the secondary (R230, R231). -/
def probe (p : Params) (e : Env) (s : State) : Bool × State :=
  match queryTrials e p.addrPrimary p.probeTrials s with
  | (true, s1) => (true, s1)
  | (false, s1) => queryTrials e p.addrSecondary p.probeTrials s1

/-- `DSP_PROBE` (R230). -/
def dspProbe (p : Params) (e : Env) (s : State) : State :=
  if s.boundValid then refuse e s
  else
    match probe p e s with
    | (true, s1) => succeed e s1
    | (false, s1) => fail e s1

/-- One command transfer per byte, in list order (30_encoding.md R97). -/
def sendCmds (p : Params) (e : Env) (cs : List Byte) (s : State) : State :=
  cs.foldl (fun s c => sendCmd p e c s) s

/-- The content of data transfer `n`: `FB[16n] .. FB[16n + 15]` with `CHUNK = 16` (R242). -/
def chunkBytes (p : Params) (s : State) (n : Nat) : List Byte :=
  (List.range p.chunk).map fun j => fbRead s (p.chunk * n + j)

/-- Data transfer `n` of a flush (R240, R242). -/
def sendChunk (p : Params) (e : Env) (s : State) (n : Nat) : State :=
  sendData p e s.boundAddr (chunkBytes p s n) s

/-- `flush()`: the window commands, then every chunk in ascending order (R240). -/
def flush (p : Params) (e : Env) (s : State) : State :=
  (List.range (chunkCount p)).foldl (sendChunk p e) (sendCmds p e p.windowSeq s)

/-- `DSP_FLUSH` (R240). -/
def dspFlush (p : Params) (e : Env) (s : State) : State :=
  if s.boundValid then succeed e (flush p e s) else refuse e s

/-- `DSP_INIT`: probe; then configuration, clear, flush; on a failed probe nothing else (R235, R238, R239). -/
def dspInit (p : Params) (e : Env) (s : State) : State :=
  if s.boundValid then refuse e s
  else
    match probe p e s with
    | (true, s1) => succeed e (flush p e (fbClear p (sendCmds p e p.initSeq s1)))
    | (false, s1) => fail e s1

/-- The meaning of `DSP_PROBE`. -/
def execDspProbe (s : State) : Host.Outcome State Fault Refusal :=
  .next (dspProbe params env s)

/-- The meaning of `DSP_INIT`. -/
def execDspInit (s : State) : Host.Outcome State Fault Refusal :=
  .next (dspInit params env s)

/-- The meaning of `DSP_FLUSH`. -/
def execDspFlush (s : State) : Host.Outcome State Fault Refusal :=
  .next (dspFlush params env s)

/-- The meaning of `RESERVED`: the opcode is refused (R104, R106). -/
def execReserved (_op : Byte) (s : State) : Host.Outcome State Fault Refusal :=
  .next (refuse env s)

/-- The meaning of `BUS_CMD_TRANSFER`: one command transfer to `a` (R97, R222). -/
def execBusCmdTransfer (a : Addr7) (c : Byte) (s : State) : Host.Outcome State Fault Refusal :=
  .next (busWrite env a [params.ctrlCmd, c] s)

/-- The data transfer of exactly `CHUNK` bytes (R98, R222); any other length is never sent (R100, log 21). -/
def busDataTransfer (p : Params) (e : Env) (a : Addr7) (d : List Byte) (s : State) : Host.Outcome State Fault Refusal :=
  if d.length = p.chunk then .next (sendData p e a d s) else .fault .transferLength

/-- The meaning of `BUS_DATA_TRANSFER`. -/
def execBusDataTransfer (a : Addr7) (d : List Byte) (s : State) : Host.Outcome State Fault Refusal :=
  busDataTransfer params env a d s

/-- The meaning of `BUS_READY_QUERY`: one ready-query to `a`, its answer on record in `TRACE` (R99, R221). -/
def execBusReadyQuery (a : Addr7) (s : State) : Host.Outcome State Fault Refusal :=
  .next (busReady env a s).2

end Sys2Proof.Machine
end

