-- ==== Sys2Proof/Machine/Framebuffer.lean ====
section
/-! DEFINITION. The in-memory display commands (43_display_framebuffer.md R190 to R207). -/

namespace Sys2Proof.Machine

/-- `DSP_CLEAR` (R192). -/
def dspClear (p : Params) (e : Env) (s : State) : State :=
  succeed e (fbClear p s)

/-- `DSP_SET_PIXEL x, y, color` (R194). -/
def dspSetPixel (p : Params) (e : Env) (s : State) : State :=
  succeed e (setPixel p (operandX s).toNat (operandY s).toNat (operandColor s) s)

/-- `DSP_SET_CURSOR x, y` (R197). -/
def dspSetCursor (e : Env) (s : State) : State :=
  succeed e { s with curX := operandX s, curY := operandY s }

/-- One pixel of a glyph box: foreground where the glyph bit is set, background `~color` where it is not (R200). The
coordinates are exact sums (30_encoding.md R105). -/
def paintPixel (p : Params) (g : Byte) (color : Bool) (r : Nat) (s : State) (c : Nat) : State :=
  setPixel p (s.curX.toNat + c) (s.curY.toNat + r) (if p.glyph g r c then color else !color) s

/-- One row of a glyph box, left to right. -/
def paintRow (p : Params) (g : Byte) (color : Bool) (s : State) (r : Nat) : State :=
  (List.range p.fontW).foldl (paintPixel p g color r) s

/-- The whole glyph box, top to bottom: painting is opaque (R201) and clipped pixel by pixel (R203). -/
def paintGlyph (p : Params) (g : Byte) (color : Bool) (s : State) : State :=
  (List.range p.fontH).foldl (paintRow p g color) s

/-- `CUR_X <- (CUR_X + FONT_W) mod 65536` (R202). -/
def advanceCursor (p : Params) (s : State) : State :=
  { s with curX := s.curX + BitVec.ofNat 16 p.fontW }

/-- `DSP_WRITE_CHAR ch, font, color` (R200, R207). -/
def dspWriteChar (p : Params) (e : Env) (s : State) : State :=
  if operandFont s ≠ 0 then refuse e s
  else succeed e (advanceCursor p (paintGlyph p (glyphCode p (operandCh s)) (operandColor s) s))

/-- One `DSP_WRITE_CHAR` line of a string: the operand writes, then the command (30_encoding.md R107, R108). -/
def writeCharLine (p : Params) (e : Env) (font color : Word) (s : State) (ch : Byte) : State :=
  dspWriteChar p e { s with arg0 := ch.setWidth 16, arg1 := font, arg2 := color }

/-- `DSP_WRITE_STRING`: one line per character code, in order (R204, log 13). -/
def dspWriteString (p : Params) (e : Env) (codes : List Byte) (font color : Word) (s : State) : State :=
  codes.foldl (writeCharLine p e font color) s

/-- The meaning of `DSP_CLEAR`. -/
def execDspClear (s : State) : Host.Outcome State Fault Refusal :=
  .next (dspClear params env s)

/-- The meaning of `DSP_SET_PIXEL`. -/
def execDspSetPixel (s : State) : Host.Outcome State Fault Refusal :=
  .next (dspSetPixel params env s)

/-- The meaning of `DSP_SET_CURSOR`. -/
def execDspSetCursor (s : State) : Host.Outcome State Fault Refusal :=
  .next (dspSetCursor env s)

/-- The meaning of `DSP_WRITE_CHAR`. -/
def execDspWriteChar (s : State) : Host.Outcome State Fault Refusal :=
  .next (dspWriteChar params env s)

/-- The meaning of `DSP_WRITE_STRING`. -/
def execDspWriteString (codes : List Byte) (font color : Word) (s : State) : Host.Outcome State Fault Refusal :=
  .next (dspWriteString params env codes font color s)

end Sys2Proof.Machine
end

