-- ==== Sys2Proof/Machine/Ranging.lean ====
section
/-! DEFINITION. The echo-ranging engine (42_ranging.md R170 to R183). -/

namespace Sys2Proof.Machine

/-- The trigger: low for `RNG_SETTLE`, high for `RNG_PULSE`, low; then the counter restarts (R172, R173). -/
def rngTrigger (p : Params) (e : Env) (s : State) : State :=
  tmrStart { delay p e p.rngPulse { delay p e p.rngSettle { s with epochValid := false, trig := false } with
    trig := true } with trig := false }

/-- The difference of two counter readings (R172, R176, log 22). -/
def counterDiff (p : Params) (later earlier : Nat) : Nat :=
  (later + (p.tmrWrap - earlier % p.tmrWrap)) % p.tmrWrap

/-- The result for an echo of `d` ticks: the exact product divided, and the ceiling (R105, R176, R177). The divisor is not 0 and
the distance fits in 16 bits in every configuration the machine takes (`configErrors`, log 23). -/
def rangeResult (p : Params) (d : Nat) : Word :=
  if d * p.rngNum / p.rngDen > p.rngMaxCm then p.rngOutOfRange else BitVec.ofNat 16 (d * p.rngNum / p.rngDen)

/-- The two echo waits and the value they report, with the state they leave (R174 to R177). -/
def rngEcho (p : Params) (e : Env) (s : State) : Word × State :=
  match waitLevelUntil p e e.echo true p.rngTimeout s with
  | (false, s1) => (p.rngNoEcho, s1)
  | (true, s1) =>
    match waitLevelUntil p e e.echo false (elapsed p s1 + p.rngTimeout) s1 with
    | (false, s2) => (p.rngOutOfRange, s2)
    | (true, s2) => (rangeResult p (counterDiff p (elapsed p s2) (elapsed p s1)), s2)

/-- `RNG_MEASURE`: refused without the unit (R104), else the result is written and the command succeeds on every path
(R172, R179). -/
def rngMeasure (p : Params) (e : Env) (s : State) : State :=
  if p.hasRng then
    succeed e { (rngEcho p e (rngTrigger p e s)).2 with result := (rngEcho p e (rngTrigger p e s)).1 }
  else refuse e s

/-- The meaning of `RNG_MEASURE`. -/
def execRngMeasure (s : State) : Host.Outcome State Fault Refusal :=
  .next (rngMeasure params env s)

end Sys2Proof.Machine
end

