-- ==== Sys2Proof/Machine/SingleWire.lean ====
section
/-! DEFINITION. The single-wire sensor engine at command level: the pseudocode of 41_single_wire.md R142, which governs
(R161), and the reception of a given frame (30_encoding.md R101). The phase table of R160 is in Sequencer.lean. -/

namespace Sys2Proof.Machine

/-- Step 1, start: low for `SW_START_LOW`, released for `SW_START_HIGH` (R143). -/
def swsStart (p : Params) (e : Env) (s : State) : State :=
  delay p e p.swStartHigh { delay p e p.swStartLow { s with epochValid := false, swOe := true } with swOe := false }

/-- Step 2, response check: low, high, low, each within its own budget; false at the first timeout (R144). -/
def swsRespond (p : Params) (e : Env) (s : State) : Bool × State :=
  match waitLevel p e (swLine e s) false p.swTimeout s with
  | (false, s1) => (false, s1)
  | (true, s1) =>
    match waitLevel p e (swLine e s1) true p.swTimeout s1 with
    | (false, s2) => (false, s2)
    | (true, s2) => waitLevel p e (swLine e s2) false p.swTimeout s2

/-- `read_byte` with `n` bits still to come, the next being bit `n - 1` of the byte (R146). A timeout of either wait ends the
byte with the bits read so far (R147, R148). -/
def readBits (p : Params) (e : Env) : Nat → Byte → State → Byte × State
  | 0, b, s => (b, s)
  | n + 1, b, s =>
    match waitLevel p e (swLine e s) true p.swTimeout s with
    | (false, s1) => (b, s1)
    | (true, s1) =>
      let s2 := delay p e p.swSampleDelay s1
      let b2 := withBit b n (swLine e s2 s2.time)
      match waitLevel p e (swLine e s2) false p.swTimeout s2 with
      | (false, s3) => (b2, s3)
      | (true, s3) => readBits p e n b2 s3

/-- Step 3, the frame: `RAW[k] <- read_byte()` for each index in turn, whatever happened in earlier bytes (R145). -/
def readFrame (p : Params) (e : Env) : List Nat → State → State
  | [], s => s
  | k :: ks, s =>
    let r := readBits p e p.swNbits 0 s
    readFrame p e ks { r.2 with raw := putRaw k r.1 r.2.raw }

/-- Step 4, the checksum: commit and succeed, or fail with nothing committed (R149, R150, R151). -/
def swsCheck (e : Env) (s : State) : State :=
  if checksumHolds s.raw then succeed e (commitReading s) else fail e s

/-- `SWS_READ` with the bounded wait for low (R142, R148). -/
def swsReadCmd (p : Params) (e : Env) (s : State) : State :=
  match swsRespond p e (swsStart p e s) with
  | (false, s1) => fail e s1
  | (true, s1) => swsCheck e (readFrame p e (List.range p.swNbytes) s1)

/-- The first row of R160: the line is pulled, the counter restarts, the sequencer enters `SW_START_LOW`. -/
def swsBegin (s : State) : State :=
  { tmrStart s with epochValid := false, swOe := true, seq := .swStartLow }

/-- `SWS_READ`. With `SW_LOW_WAIT_BOUNDED = false` a wait may never end, so the command is only begun here and runs on row
by row (R148, log 26). -/
def swsRead (p : Params) (e : Env) (s : State) : State :=
  if p.lowWaitBounded then swsReadCmd p e s else swsBegin s

/-- `SW_FRAME`: the engine has received these five bytes; what is left of the read is the checksum step (R101, R149, R150,
log 12). The reception takes a time the spec does not give and leaves the counter wherever its last wait restarted it. -/
def swFrame (e : Env) (r : Reading) (s : State) : State :=
  swsCheck e (lapse e { s with raw := r, swOe := false, epochValid := false, epoch := e.epoch s.draws })

/-- The meaning of `SWS_READ`. -/
def execSwsRead (s : State) : Host.Outcome State Fault Refusal :=
  .next (swsRead params env s)

/-- The meaning of `SW_FRAME`. -/
def execSwFrame (h f t g k : Byte) (s : State) : Host.Outcome State Fault Refusal :=
  .next (swFrame env ⟨h, f, t, g, k⟩ s)

end Sys2Proof.Machine
end

