-- ==== Sys2Proof/Machine/Timer.lean ====
section
/-! DEFINITION. The timer commands (40_timer.md R129 to R133). -/

namespace Sys2Proof.Machine

/-- `TMR_START`: `tmr_start(); EPOCH_VALID <- 1; succeed` (R129). -/
def tmrStartCmd (e : Env) (s : State) : State :=
  succeed e { tmrStart s with epochValid := true }

/-- The value `TMR_ELAPSED` writes: the counter, or a free value while the epoch is not valid (R130, R131, log 4). -/
def elapsedResult (p : Params) (e : Env) (s : State) : Word :=
  if s.epochValid then BitVec.ofNat 16 (elapsed p s) else e.elapsed s.draws

/-- `TMR_ELAPSED` (R130). -/
def tmrElapsedCmd (p : Params) (e : Env) (s : State) : State :=
  succeed e { s with result := elapsedResult p e s, draws := s.draws + 1 }

/-- `TMR_DELAY us`: `delay(us); EPOCH_VALID <- 0; succeed` (R132). -/
def tmrDelayCmd (p : Params) (e : Env) (s : State) : State :=
  succeed e { delay p e (operandUs s) s with epochValid := false }

/-- The meaning of `TMR_START`. -/
def execTmrStart (s : State) : Host.Outcome State Fault Refusal :=
  .next (tmrStartCmd env s)

/-- The meaning of `TMR_ELAPSED`. -/
def execTmrElapsed (s : State) : Host.Outcome State Fault Refusal :=
  .next (tmrElapsedCmd params env s)

/-- The meaning of `TMR_DELAY`. -/
def execTmrDelay (s : State) : Host.Outcome State Fault Refusal :=
  .next (tmrDelayCmd params env s)

end Sys2Proof.Machine
end

