-- ==== Sys2Proof/Machine/Dispatch.lean ====
section
/-! DEFINITION. One arm per row of the opcode table, each one direct call of that row's meaning. -/

namespace Sys2Proof.Machine

def exec (i : Instr) (s : State) : Host.Outcome State Fault Refusal :=
  match i with
  | .tmrStart => Sys2Proof.Machine.execTmrStart s
  | .tmrElapsed => Sys2Proof.Machine.execTmrElapsed s
  | .tmrDelay => Sys2Proof.Machine.execTmrDelay s
  | .swsRead => Sys2Proof.Machine.execSwsRead s
  | .rngMeasure => Sys2Proof.Machine.execRngMeasure s
  | .dspProbe => Sys2Proof.Machine.execDspProbe s
  | .dspInit => Sys2Proof.Machine.execDspInit s
  | .dspClear => Sys2Proof.Machine.execDspClear s
  | .dspSetPixel => Sys2Proof.Machine.execDspSetPixel s
  | .dspSetCursor => Sys2Proof.Machine.execDspSetCursor s
  | .dspWriteChar => Sys2Proof.Machine.execDspWriteChar s
  | .dspFlush => Sys2Proof.Machine.execDspFlush s
  | .dspWriteString codes font color => Sys2Proof.Machine.execDspWriteString codes font color s
  | .reserved op => Sys2Proof.Machine.execReserved op s
  | .busCmdTransfer a c => Sys2Proof.Machine.execBusCmdTransfer a c s
  | .busDataTransfer a d => Sys2Proof.Machine.execBusDataTransfer a d s
  | .busReadyQuery a => Sys2Proof.Machine.execBusReadyQuery a s
  | .swFrame h f t g k => Sys2Proof.Machine.execSwFrame h f t g k s

end Sys2Proof.Machine
end

