-- ==== Sys2Proof/Machine/Sequencer.lean ====
section
/-! DEFINITION. The sequencer, one row a step: the phases of 10_state.md R28, with the transition table of
41_single_wire.md R160 for the single-wire engine and the same form for the other engines (log 15). A command begun here
and carried through reaches what its command-level meaning gives in one step (R161). -/

namespace Sys2Proof.Machine

/-- "Wait one tick" of R160. -/
def waitTick (s : State) : State :=
  { s with time := s.time + 1 }

/-- "restart", and the next phase. -/
def restartIn (ph : Seq) (s : State) : State :=
  { tmrStart s with seq := ph }

/-- A delay phase: it leaves when `e >= n`, after the overshoot draw (R124, R161). -/
def delayPhase (p : Params) (e : Env) (n : Nat) (done : State → State) (s : State) : State :=
  if elapsed p s < n then waitTick s else done (overshoot p e s)

/-- A wait phase: level met, after the latency draw; timeout, where `bounded`; or keep waiting (R126, R161). -/
def waitPhase (p : Params) (e : Env) (src : Nat → Bool) (v bounded : Bool) (budget : Nat)
    (met timeout : State → State) (s : State) : State :=
  if src s.time = v then met (latency p e s)
  else if bounded = true ∧ budget ≤ elapsed p s then timeout s
  else waitTick s

/-- "byte ends" of R160: the byte goes to `RAW[k]`, and the next byte or the check follows. -/
def byteEnds (p : Params) (k : Nat) (b : Byte) (s : State) : State :=
  if k + 1 < p.swNbytes then restartIn (.swBitWaitHigh (k + 1) 0 0) { s with raw := putRaw k b s.raw }
  else { s with raw := putRaw k b s.raw, seq := .swCheck }

/-- The row after a failed trial: the next trial, the secondary address, or failure (44_display_bus.md R230). -/
def probeNext (p : Params) (e : Env) (init second : Bool) (n : Nat) (s : State) : State :=
  if n + 1 < p.probeTrials then { s with seq := .dspProbe init second (n + 1) }
  else if second then fail e s
  else { s with seq := .dspProbe init true 0 }

/-- The phase of data transfer `n`, or the end of the command where there is none (R242): `DSP_CHUNK` is only ever entered at
an index that R28 gives it. -/
def enterChunk (p : Params) (e : Env) (n : Nat) (s : State) : State :=
  if n < chunkCount p then { s with seq := .dspChunk n } else succeed e s

/-- The phase of byte `q` of `WINDOW_SEQ`, or the data transfers where there is none (R240). -/
def enterWindow (p : Params) (e : Env) (q : Nat) (s : State) : State :=
  if q < p.windowSeq.length then { s with seq := .dspWindow q } else enterChunk p e 0 s

/-- The phase of byte `q` of `INIT_SEQ`, or the clear where there is none (R235). -/
def enterConfig (p : Params) (q : Nat) (s : State) : State :=
  if q < p.initSeq.length then { s with seq := .dspConfig q } else { s with seq := .dspClearing true }

/-- The phase of row `r`, column `c` of a glyph box, the next row where the column is past the last, or the end of the command
where there is no row left (R200). -/
def enterGlyph (p : Params) (e : Env) (r c : Nat) (s : State) : State :=
  if r < p.fontH ∧ c < p.fontW then { s with seq := .dspGlyph r c }
  else if r + 1 < p.fontH ∧ 0 < p.fontW then { s with seq := .dspGlyph (r + 1) 0 }
  else succeed e (advanceCursor p s)

/-- The row of one ready-query (R230). -/
def probeRow (p : Params) (e : Env) (init second : Bool) (n : Nat) (s : State) : State :=
  let a := if second then p.addrSecondary else p.addrPrimary
  match busReady e a s with
  | (true, s1) =>
    if init then enterConfig p 0 { s1 with boundValid := true, boundAddr := a }
    else succeed e { s1 with boundValid := true, boundAddr := a }
  | (false, s1) => probeNext p e init second n s1

/-- One row of the sequencer. -/
def seqStep (p : Params) (e : Env) (s : State) : State :=
  match s.seq with
  | .idle => s
  | .tmrWait => delayPhase p e (operandUs s) (fun s => succeed e { s with epochValid := false }) s
  | .swStartLow =>
    delayPhase p e p.swStartLow (fun s => restartIn .swStartHigh { s with swOe := false }) s
  | .swStartHigh => delayPhase p e p.swStartHigh (restartIn .swRespLow1) s
  | .swRespLow1 => waitPhase p e (swLine e s) false true p.swTimeout (restartIn .swRespHigh) (fail e) s
  | .swRespHigh => waitPhase p e (swLine e s) true true p.swTimeout (restartIn .swRespLow2) (fail e) s
  | .swRespLow2 =>
    waitPhase p e (swLine e s) false true p.swTimeout (restartIn (.swBitWaitHigh 0 0 0)) (fail e) s
  | .swBitWaitHigh k i b =>
    waitPhase p e (swLine e s) true true p.swTimeout (restartIn (.swBitDelay k i b)) (byteEnds p k b) s
  | .swBitDelay k i b => delayPhase p e p.swSampleDelay (fun s => { s with seq := .swBitSample k i b }) s
  | .swBitSample k i b => restartIn (.swBitWaitLow k i (withBit b (p.swNbits - 1 - i) (swLine e s s.time))) s
  | .swBitWaitLow k i b =>
    waitPhase p e (swLine e s) false p.lowWaitBounded p.swTimeout
      (fun s => if i + 1 < p.swNbits then restartIn (.swBitWaitHigh k (i + 1) b) s else byteEnds p k b s)
      (byteEnds p k b) s
  | .swCheck => swsCheck e s
  | .rngSettle => delayPhase p e p.rngSettle (fun s => restartIn .rngPulse { s with trig := true }) s
  | .rngPulse => delayPhase p e p.rngPulse (fun s => restartIn .rngWaitRise { s with trig := false }) s
  | .rngWaitRise =>
    waitPhase p e e.echo true true p.rngTimeout (fun s => { s with seq := .rngWaitFall (elapsed p s) })
      (fun s => succeed e { s with result := p.rngNoEcho }) s
  | .rngWaitFall ts =>
    waitPhase p e e.echo false true (ts + p.rngTimeout)
      (fun s => { s with seq := .rngConvert (counterDiff p (elapsed p s) ts) })
      (fun s => succeed e { s with result := p.rngOutOfRange }) s
  | .rngConvert d => succeed e { s with result := rangeResult p d }
  | .dspProbe init second n => probeRow p e init second n s
  | .dspConfig q => enterConfig p (q + 1) (sendCmds p e (p.initSeq[q]?).toList s)
  | .dspClearing init => if init then enterWindow p e 0 (fbClear p s) else succeed e (fbClear p s)
  | .dspWindow q => enterWindow p e (q + 1) (sendCmds p e (p.windowSeq[q]?).toList s)
  | .dspChunk n => enterChunk p e (n + 1) (sendChunk p e s n)
  | .dspGlyph r c =>
    enterGlyph p e r (c + 1) (paintPixel p (glyphCode p (operandCh s)) (operandColor s) r s c)

/-- `n` rows. -/
def seqRun (p : Params) (e : Env) : Nat → State → State
  | 0, s => s
  | n + 1, s => seqRun p e n (seqStep p e s)

/-- The first row of a command: it is refused, completes at once, or enters its first phase. Only a host command is begun
this way (`decodeCmd` gives no other). That entering `TMR_WAIT` restarts the counter, as a row of R160 does, is the model's
choice, DESIGN CHOICE: R124 leaves open whether a delay does (log 28). -/
def seqBegin (p : Params) (e : Env) (i : Instr) (s : State) : State :=
  match i with
  | .tmrStart => tmrStartCmd e s
  | .tmrElapsed => tmrElapsedCmd p e s
  | .tmrDelay => restartIn .tmrWait s
  | .swsRead => swsBegin s
  | .rngMeasure =>
    if p.hasRng then restartIn .rngSettle { s with epochValid := false, trig := false } else refuse e s
  | .dspProbe => if s.boundValid then refuse e s else { s with seq := .dspProbe false false 0 }
  | .dspInit => if s.boundValid then refuse e s else { s with seq := .dspProbe true false 0 }
  | .dspClear => { s with seq := .dspClearing false }
  | .dspSetPixel => dspSetPixel p e s
  | .dspSetCursor => dspSetCursor e s
  | .dspWriteChar => if operandFont s ≠ 0 then refuse e s else enterGlyph p e 0 0 s
  | .dspFlush => if s.boundValid then enterWindow p e 0 s else refuse e s
  | .dspWriteString _ _ _ => s
  | .reserved _ => refuse e s
  | .busCmdTransfer _ _ => s
  | .busDataTransfer _ _ => s
  | .busReadyQuery _ => s
  | .swFrame _ _ _ _ _ => s

end Sys2Proof.Machine
end

