-- ==== Sys2Proof/Machine/Deliver.lean ====
section
/-! DEFINITION. What one step does: it takes the host's next access (10_state.md R21, R31, R51) and carries it out, or
lets the running command go on (log 1, log 15). Beside it the same machine for any configuration (00_scope.md R11). -/

namespace Sys2Proof.Machine

/-- The outcome of an instruction, as `exec` gives it or as a configured machine does. -/
abbrev Run := Instr → State → Host.Outcome State Fault Refusal

/-- A packet is decoded and run, or refused by the decoder's reason (log 11). -/
def runPacket (run : Run) (p : Params) (pk : Packet) (s : State) : Host.Outcome State Fault Refusal :=
  match decodeFor p pk with
  | .ok i => run i s
  | .error err => .refused (.undecodable err)

/-- A row of the running command, or idle time between commands (R280, R331, log 6). -/
def pass (p : Params) (e : Env) (s : State) : State :=
  if s.seq = .idle then lapse e s else seqStep p e s

/-- One host access, taken while no command runs (R21, R23, R31, R51). -/
def deliver (run : Run) (p : Params) (e : Env) (x : HostInput) (s : State) : Host.Outcome State Fault Refusal :=
  match x with
  | .write index v => if index = 0#4 then runPacket run p (.cmd v) s else .next (regWrite index v s)
  | .read index => .next (hostRead index s)
  | .beginCmd v => .next (seqBegin p e (decodeCmd v) s)
  | .wait => .next (pass p e s)
  | .rst => .next (hardReset p e s)
  | .packet pk => runPacket run p pk s

/-- One step. `rst` acts at once, a running command included (R51); a host access waits while a command runs (R21). -/
def advance (run : Run) (p : Params) (e : Env) (s : State) : Host.Outcome State Fault Refusal :=
  match s.inbox with
  | [] => .next (pass p e s)
  | x :: rest =>
    if s.seq = .idle ∨ x = .rst ∨ x = .wait then deliver run p e x { s with inbox := rest }
    else .next (seqStep p e s)

/-- `exec` for any configuration and environment: the same operations, the parameters as arguments (R39). -/
def execFor (p : Params) (e : Env) (i : Instr) (s : State) : Host.Outcome State Fault Refusal :=
  match i with
  | .tmrStart => .next (tmrStartCmd e s)
  | .tmrElapsed => .next (tmrElapsedCmd p e s)
  | .tmrDelay => .next (tmrDelayCmd p e s)
  | .swsRead => .next (swsRead p e s)
  | .rngMeasure => .next (rngMeasure p e s)
  | .dspProbe => .next (dspProbe p e s)
  | .dspInit => .next (dspInit p e s)
  | .dspClear => .next (dspClear p e s)
  | .dspSetPixel => .next (dspSetPixel p e s)
  | .dspSetCursor => .next (dspSetCursor e s)
  | .dspWriteChar => .next (dspWriteChar p e s)
  | .dspFlush => .next (dspFlush p e s)
  | .dspWriteString codes font color => .next (dspWriteString p e codes font color s)
  | .reserved _ => .next (refuse e s)
  | .busCmdTransfer a c => .next (busWrite e a [p.ctrlCmd, c] s)
  | .busDataTransfer a d => busDataTransfer p e a d s
  | .busReadyQuery a => .next (busReady e a s).2
  | .swFrame h f t g k => .next (swFrame e ⟨h, f, t, g, k⟩ s)

/-- The machine of a configuration; one that breaks a constraint is refused (R11, log 23). -/
def stepFor (p : Params) (e : Env) (s : State) : Host.Outcome State Fault Refusal :=
  match configure p with
  | .ok q => advance (execFor q e) q e s
  | .error err => .refused (.configuration err)

end Sys2Proof.Machine
end

