-- ==== Sys2Proof/Machine/Step.lean ====
section
/-! DEFINITION. The step of the machine in its reference configuration, and where it finds its next instruction. -/

namespace Sys2Proof.Machine

/-- One step: the host's next access, or one row of the running command. -/
def step (s : State) : Host.Outcome State Fault Refusal :=
  advance exec params env s

/-- The state with a table row's bits as the host's next access (log 1, log 14). -/
def State.withFetchWord (s : State) (nbits w : Nat) : State :=
  { s with inbox := tableInput nbits w :: s.inbox }

end Sys2Proof.Machine
end

