-- ==== Sys2Proof/Safety.lean ====
section
/-! DEFINITION. What holds of the block between any two steps, in the terms the statements use: the invariants the spec
states (10_state.md R29, R32, R33, R35, R36; 30_encoding.md R100; 40_timer.md R122), when a command is refused
(30_encoding.md R104), and what a sensor's frame looks like on the line (30_encoding.md R101, 41_single_wire.md R157). -/

namespace Sys2Proof.Safety

open Sys2Proof.Machine

/-! ## Invariants -/

/-- The framebuffer is in canonical form and lists only bytes that exist (20_memory.md R60, R62; log 16). -/
def FramebufferInv (p : Params) (s : State) : Prop :=
  Memory.wf s.fb = true ∧ Memory.within (fbSize p) s.fb = true

/-- `SW_DATA4` is the sum of the other four modulo 256, and `SW_TEMP = SW_DATA2` (R32, R33). -/
def ReadingInv (s : State) : Prop :=
  checksumHolds s.swData = true ∧ s.swTemp = s.swData.tempInt

/-- While unbound, `BOUND_ADDR` is 0; while bound, it is one of the two candidate addresses (R35). -/
def BindingInv (p : Params) (s : State) : Prop :=
  (s.boundValid = false → s.boundAddr = 0) ∧
    (s.boundValid = true → s.boundAddr = p.addrPrimary ∨ s.boundAddr = p.addrSecondary)

/-- `ST_OK` and `ST_ILL` are never both 1: a refused command does not succeed (R29, R104). -/
def StatusInv (s : State) : Prop :=
  (s.stOk && s.stIll) = false

/-- The block pulls the sensor line only in `SW_START_LOW` and drives the trigger only in `RNG_PULSE`; in particular both
are 0 between commands (R36, R141, R172). -/
def LinesInv (s : State) : Prop :=
  (s.swOe = true → s.seq = .swStartLow) ∧ (s.trig = true → s.seq = .rngPulse)

/-- The phases of the two sensor commands, which clear `EPOCH_VALID` before anything else (R28, R142, R172). `TMR_DELAY` is
none of them: it clears the flag after its delay (R132). -/
def sensorPhase : Seq → Bool
  | .idle => false
  | .tmrWait => false
  | .swStartLow => true
  | .swStartHigh => true
  | .swRespLow1 => true
  | .swRespHigh => true
  | .swRespLow2 => true
  | .swBitWaitHigh _ _ _ => true
  | .swBitDelay _ _ _ => true
  | .swBitSample _ _ _ => true
  | .swBitWaitLow _ _ _ => true
  | .swCheck => true
  | .rngSettle => true
  | .rngPulse => true
  | .rngWaitRise => true
  | .rngWaitFall _ => true
  | .rngConvert _ => true
  | .dspProbe _ _ _ => false
  | .dspConfig _ => false
  | .dspClearing _ => false
  | .dspWindow _ => false
  | .dspChunk _ => false
  | .dspGlyph _ _ => false

/-- A valid epoch is a tick that has passed, and no sensor command, which clears the flag first, is running (R36, R122,
R142, R172, R312). -/
def TimerInv (s : State) : Prop :=
  s.epochValid = true → s.epoch ≤ s.time ∧ sensorPhase s.seq = false

/-- The payloads the block ever sends: a control byte 0x00 and one byte, or 0x40 and `CHUNK` bytes (R96, R100). -/
def eventShape : BusEvent → Bool
  | .ready _ _ => true
  | .write _ payload =>
    match payload with
    | [] => false
    | ctrl :: rest =>
      (ctrl == Config.ctrlCmd && rest.length == 1) || (ctrl == Config.ctrlData && rest.length == Config.chunk)

/-- `TBUF` has its 17 bytes and every recorded event one of the three shapes (R36, R94, R100). -/
def BusInv (s : State) : Prop :=
  s.tbuf.length = 17 ∧ s.trace.all eventShape = true

/-- The loop indices of a phase are in the ranges R28 gives them. -/
def phaseInRange (p : Params) : Seq → Bool
  | .idle => true
  | .tmrWait => true
  | .swStartLow => true
  | .swStartHigh => true
  | .swRespLow1 => true
  | .swRespHigh => true
  | .swRespLow2 => true
  | .swBitWaitHigh k i _ => decide (k < p.swNbytes) && decide (i < p.swNbits)
  | .swBitDelay k i _ => decide (k < p.swNbytes) && decide (i < p.swNbits)
  | .swBitSample k i _ => decide (k < p.swNbytes) && decide (i < p.swNbits)
  | .swBitWaitLow k i _ => decide (k < p.swNbytes) && decide (i < p.swNbits)
  | .swCheck => true
  | .rngSettle => true
  | .rngPulse => true
  | .rngWaitRise => true
  | .rngWaitFall _ => true
  | .rngConvert _ => true
  | .dspProbe _ _ n => decide (n < p.probeTrials)
  | .dspConfig q => decide (q < p.initSeq.length)
  | .dspClearing _ => true
  | .dspWindow q => decide (q < p.windowSeq.length)
  | .dspChunk n => decide (n < chunkCount p)
  | .dspGlyph r c => decide (r < p.fontH) && decide (c < p.fontW)

/-- The phase in which addresses are queried (R230). -/
def probing : Seq → Bool
  | .dspProbe _ _ _ => true
  | _ => false

/-- The phases that write on the bus, with the clear between them that only `DSP_INIT` has (R224, R235, R240). -/
def sending : Seq → Bool
  | .dspConfig _ => true
  | .dspClearing init => init
  | .dspWindow _ => true
  | .dspChunk _ => true
  | _ => false

/-- The sequencer's indices are in range, it queries addresses only while unbound, and it writes on the bus only while bound
(R28, R104, R224). -/
def SequencerInv (p : Params) (s : State) : Prop :=
  phaseInRange p s.seq = true ∧ (s.boundValid = true → probing s.seq = false) ∧
    (sending s.seq = true → s.boundValid = true)

/-! ## Refusal -/

/-- Whether rule R104 refuses a command in a state. -/
def refused (p : Params) (i : Instr) (s : State) : Bool :=
  match i with
  | .tmrStart => false
  | .tmrElapsed => false
  | .tmrDelay => false
  | .swsRead => false
  | .rngMeasure => !p.hasRng
  | .dspProbe => s.boundValid
  | .dspInit => s.boundValid
  | .dspClear => false
  | .dspSetPixel => false
  | .dspSetCursor => false
  | .dspWriteChar => operandFont s != 0
  | .dspFlush => !s.boundValid
  | .dspWriteString _ _ _ => false
  | .reserved _ => true
  | .busCmdTransfer _ _ => false
  | .busDataTransfer _ _ => false
  | .busReadyQuery _ => false
  | .swFrame _ _ _ _ _ => false

/-- The instructions that are host commands: the twelve of R91 and the reserved opcodes. -/
def hostCommand (i : Instr) : Bool :=
  (opcode? i).isSome

/-! ## Frames on the line -/

/-- The line is at level `v` for the `n` ticks from `t`. -/
def levelFor (line : Nat → Bool) (v : Bool) (t n : Nat) : Bool :=
  (List.range n).all fun u => line (t + u) == v

/-- The sensor's response from tick `t`: high for `a` ticks (or none), low for `b`, high for `c`, each within the budget,
then low (R101, R144). -/
def responseOn (line : Nat → Bool) (t a b c : Nat) : Bool :=
  decide (a ≤ 100) && decide (1 ≤ b) && decide (b ≤ 100) && decide (1 ≤ c) && decide (c ≤ 100) &&
    levelFor line true t a && levelFor line false (t + a) b && levelFor line true (t + a + b) c &&
    !line (t + a + b + c)

/-- A bit cell as a sensor sends it: the bit, the ticks the line is low before it rises, the ticks it is high. -/
structure Cell where
  /-- The bit meant. -/
  bit : Bool
  /-- Low ticks, counted from the tick at which the block starts to wait for the rise. -/
  low : Nat
  /-- High ticks. -/
  high : Nat
  deriving DecidableEq, Repr

/-- The tick at which the block, having read a cell that began at `t`, starts to wait for the next one: at the fall, or 40
ticks after the rise if that is later (R146). -/
def cellEnd (c : Cell) (t : Nat) : Nat :=
  t + c.low + max c.high 40

/-- A cell is on the line from tick `t`: low within the budget, then high for more than 40 ticks and within the wait for low
for a 1, at most 40 for a 0, then low up to where the block looks for the next cell (R102, R146). -/
def cellOn (line : Nat → Bool) (c : Cell) (t : Nat) : Bool :=
  decide (c.low ≤ 100) && decide (1 ≤ c.high) && decide (c.high ≤ 140) && (c.bit == decide (41 ≤ c.high)) &&
    levelFor line false t c.low && levelFor line true (t + c.low) c.high &&
    levelFor line false (t + c.low + c.high) (41 - c.high) && !line (cellEnd c t)

/-- The cells are on the line one after the other from tick `t`. -/
def cellsOn (line : Nat → Bool) : List Cell → Nat → Bool
  | [], _ => true
  | c :: cs, t => cellOn line c t && cellsOn line cs (cellEnd c t)

/-- The tick at which the last of the cells is done. -/
def cellsEnd : List Cell → Nat → Nat
  | [], t => t
  | c :: cs, t => cellsEnd cs (cellEnd c t)

/-- The reading five bytes in line order are (R17, R101). -/
def readingOf (bytes : List Byte) : Reading :=
  ⟨bytes.getD 0 0, bytes.getD 1 0, bytes.getD 2 0, bytes.getD 3 0, bytes.getD 4 0⟩

end Sys2Proof.Safety
end

