-- ==== Sys2Proof/Certificates/Slice0/Obligations.lean ====
section
/-! DEFINITION. The statements for the provers, each from the spec's rules named in its docstring. Where a statement speaks
of `execFor params e`, it holds in every environment `e`; `ExecIsTheReferenceMachine` links it to `exec`. A term
`env.duration n`, `env.elapsed n` or the like is a free value: no statement rests on what it is. -/

open Sys2Proof Sys2Proof.Machine Sys2Proof.Safety

/-! ## Encoding -/

/-- Decoding an encoded well-formed instruction gives it back: no bit of a format is dropped (R91, R95 to R99, R101). -/
def Obligations.EncodedInstructionsDecodeBack : Prop :=
  ∀ i : Instr, i.wf = true → decode (encode i) = .ok i

/-- What the decoder accepts is well-formed, and encoding it gives the packet back, but for `CMD[15:8]`, which is ignored
(R31, R94 to R101). -/
def Obligations.AcceptedPacketsEncodeBack : Prop :=
  ∀ (pk : Packet) (i : Instr), decode pk = .ok i →
    i.wf = true ∧
    encode i = match pk with
      | .cmd w => .cmd ((w.setWidth 8).setWidth 16)
      | .bus bytes => .bus bytes
      | .line bits => .line bits
      | .text codes font color => .text codes font color

/-- Words written out from the spec's encodings decode to the instructions they stand for (R91, R95, R97, R99, R157). -/
def Obligations.WrittenOutWordsDecode : Prop :=
  decode (.cmd 0b0000000000000001) = .ok .tmrStart ∧
  decode (.cmd 0b1010101100000001) = .ok .tmrStart ∧
  decode (.cmd 0b0000000000010000) = .ok .swsRead ∧
  decode (.cmd 0b0000000000100000) = .ok .rngMeasure ∧
  decode (.cmd 0b0000000000110011) = .ok .dspSetPixel ∧
  decode (.cmd 0b0000000000110110) = .ok .dspFlush ∧
  decode (.cmd 0b0000000000110111) = .ok (.reserved 0x37) ∧
  decode (.bus [0x78, 0x00, 0xAF]) = .ok (.busCmdTransfer 0x3C 0xAF) ∧
  decode (.bus [0x7A]) = .ok (.busReadyQuery 0x3D) ∧
  decode (.line (([0x3C, 0x00, 0x19, 0x00, 0x55] : List Byte).flatMap bitsOfByte)) = .ok (.swFrame 60 0 25 0 85)

/-! ## Steps and host accesses -/

/-- `exec` is the reference configuration's machine (R8, R10, R39). -/
def Obligations.ExecIsTheReferenceMachine : Prop :=
  (∀ i s, exec i s = execFor params env i s) ∧ configure params = .ok params ∧ (∀ s, step s = stepFor params env s)

/-- A step runs the decoded instruction: between commands, a `CMD` write runs the command its opcode selects, on the state with
the access taken off the inbox (R21, R31, R91). The other three clauses are the model's choices: that a packet of another
format is run as the instruction it decodes to, or refused by the decoder's reason (log 11), and that a table row's bits, put
before the step and read most significant byte first, are what the step runs (log 1, log 14). -/
def Obligations.StepRunsTheDecodedInstruction : Prop :=
  ∀ (s : State) (rest : List HostInput), s.seq = .idle →
    (∀ w, s.inbox = .write 0#4 w :: rest → step s = exec (decodeCmd w) { s with inbox := rest }) ∧
    (∀ pk i, s.inbox = .packet pk :: rest → decode pk = .ok i → step s = exec i { s with inbox := rest }) ∧
    (∀ pk err, s.inbox = .packet pk :: rest → decode pk = .error err → step s = .refused (.undecodable err)) ∧
    (∀ nbits w i, decodeTableWord nbits w = some i → step (s.withFetchWord nbits w) = exec i s)

/-- Host accesses between commands: a write of `ARG0..2` takes effect at once, a write of any other register but `CMD` is
ignored, a read hands back the register and changes nothing else (R23, R51). `rdata` is the model's record of the answer
(log 18). -/
def Obligations.HostAccessesReachOnlyOperands : Prop :=
  ∀ (s : State) (index : BitVec 4) (v : Word) (rest : List HostInput), s.seq = .idle →
    (s.inbox = .read index :: rest → step s = .next { s with inbox := rest, rdata := regRead s index }) ∧
    (s.inbox = .write index v :: rest →
      (index = 2#4 → step s = .next { s with inbox := rest, arg0 := v }) ∧
      (index = 3#4 → step s = .next { s with inbox := rest, arg1 := v }) ∧
      (index = 4#4 → step s = .next { s with inbox := rest, arg2 := v }) ∧
      (index ≠ 0#4 → index ≠ 2#4 → index ≠ 3#4 → index ≠ 4#4 → step s = .next { s with inbox := rest }))

/-- The register map as the host reads it (R23, R29, R31, R35): `STATUS` has the four flags in bits 0 to 3 and zeros above,
`DSP_ADDR` the flag and the address, narrow registers zeros above, `CMD` and index 0xF read 0. -/
def Obligations.HostReadsTheRegisterMap : Prop :=
  ∀ s : State,
    (regRead s 0x0).toNat = 0 ∧
    (regRead s 0x1).toNat =
      s.stOk.toNat + 2 * s.stIll.toNat + 4 * s.boundValid.toNat + 8 * s.epochValid.toNat ∧
    regRead s 0x2 = s.arg0 ∧ regRead s 0x3 = s.arg1 ∧ regRead s 0x4 = s.arg2 ∧ regRead s 0x5 = s.result ∧
    (regRead s 0x6).toNat = s.swData.humidityInt.toNat ∧ (regRead s 0x7).toNat = s.swData.humidityFrac.toNat ∧
    (regRead s 0x8).toNat = s.swData.tempInt.toNat ∧ (regRead s 0x9).toNat = s.swData.tempFrac.toNat ∧
    (regRead s 0xA).toNat = s.swData.checksum.toNat ∧ (regRead s 0xB).toNat = s.swTemp.toNat ∧
    regRead s 0xC = s.curX ∧ regRead s 0xD = s.curY ∧
    (regRead s 0xE).toNat = (if s.boundValid then 128 + s.boundAddr.toNat else 0) ∧
    (regRead s 0xF).toNat = 0

/-- While a command runs the host is stalled: its access stays where it is and one row of the sequencer passes (R21, R27). What
else a step can be, in the model's form (log 6, log 15): between commands, `beginCmd` enters the command's first row; `wait`, or
an empty inbox, passes one row of a running command, or one duration draw of idle time between commands (R280). That a command
can run row by row, and that `rst` and `wait` do not stall, is the model's choice. -/
def Obligations.HostStallsWhileACommandRuns : Prop :=
  (∀ (s : State) (x : HostInput) (rest : List HostInput),
    s.seq ≠ .idle → s.inbox = x :: rest → x ≠ .rst → x ≠ .wait →
    step s = .next (seqStep params env s) ∧ (seqStep params env s).inbox = x :: rest) ∧
  (∀ (s : State) (v : Word) (rest : List HostInput), s.seq = .idle → s.inbox = .beginCmd v :: rest →
    step s = .next (seqBegin params env (decodeCmd v) { s with inbox := rest })) ∧
  (∀ (s : State) (rest : List HostInput), (s.inbox = .wait :: rest ∨ (s.inbox = [] ∧ rest = [])) →
    (s.seq ≠ .idle → step s = .next (seqStep params env { s with inbox := rest })) ∧
    (s.seq = .idle → step s = .next { s with
      inbox := rest, time := s.time + env.duration s.draws, draws := s.draws + 1 }))

/-- `rst` at any time, a running command included, leaves the reset state, the line released, and `T` and `TRACE` as they were
(R38, R50, R51). That the accesses not yet taken stay in `inbox`, and that `rdata`, the model's record of the last read's
answer, becomes 0, is the model's choice (log 17): no rule says either. -/
def Obligations.ResetAbandonsAnything : Prop :=
  ∀ (s : State) (rest : List HostInput), s.inbox = .rst :: rest →
    ∃ t, step s = .next t ∧
      t = { State.reset with
        epoch := t.epoch, raw := t.raw, tbuf := t.tbuf, time := s.time, trace := s.trace, draws := t.draws, inbox := rest }

/-- The values reset leaves that R50 states; `EPOCH`, `RAW` and `TBUF` are unspecified there and not spoken of. -/
def Obligations.ResetLeavesTheStatedValues : Prop :=
  (∀ index, regRead State.reset index = 0) ∧ (∀ i, fbRead State.reset i = 0) ∧
  State.reset.arg0 = 0 ∧ State.reset.arg1 = 0 ∧ State.reset.arg2 = 0 ∧ State.reset.result = 0 ∧
  State.reset.stOk = false ∧ State.reset.stIll = false ∧ State.reset.boundValid = false ∧
  State.reset.epochValid = false ∧ State.reset.boundAddr = 0 ∧ State.reset.curX = 0 ∧ State.reset.curY = 0 ∧
  State.reset.swOe = false ∧ State.reset.trig = false ∧ State.reset.seq = .idle

/-- A refused command (R104 (a) to (e)) sets `ST_ILL`, clears `ST_OK`, takes its duration draw, and changes nothing else, in
every configuration and environment. -/
def Obligations.RefusedCommandsChangeNothingElse : Prop :=
  ∀ (p : Params) (e : Env) (w : Word) (s : State), s.seq = .idle →
    ((w.setWidth 8 : Byte) ∉ definedOpcodes ∨
      ((w.setWidth 8 : Byte) = 0x20 ∧ p.hasRng = false) ∨
      ((w.setWidth 8 : Byte) = 0x35 ∧ s.arg1 ≠ 0) ∨
      ((w.setWidth 8 : Byte) = 0x36 ∧ s.boundValid = false) ∨
      (((w.setWidth 8 : Byte) = 0x30 ∨ (w.setWidth 8 : Byte) = 0x31) ∧ s.boundValid = true)) →
    execFor p e (decodeCmd w) s = .next { s with
      stOk := false, stIll := true, time := s.time + e.duration s.draws, draws := s.draws + 1 }

/-- A reserved opcode is refused by the machine: it completes with `ST_ILL` set and nothing else changed (R104, R106). -/
def Obligations.ReservedOpcodesAreRefused : Prop :=
  ∀ (op : Byte) (s : State), s.seq = .idle →
    (op = 0x00 ∨ (0x04 ≤ op ∧ op ≤ 0x0F) ∨ (0x11 ≤ op ∧ op ≤ 0x1F) ∨ (0x21 ≤ op ∧ op ≤ 0x2F) ∨ 0x37 ≤ op) →
    decodeCmd (op.setWidth 16) = .reserved op ∧
    exec (.reserved op) s = .next { s with
      stOk := false, stIll := true, time := s.time + env.duration s.draws, draws := s.draws + 1 }

/-! ## Timer -/

/-- `TMR_START`, opcode 0x01, moves the epoch to now and marks it valid; `ST_OK` is set; nothing else changes but the time, by
the duration draw (R129). -/
def Obligations.TmrStartMovesTheEpoch : Prop :=
  decode (.cmd 0x0001) = .ok .tmrStart ∧ ∀ s : State, exec .tmrStart s = .next { s with
    epoch := s.time, epochValid := true, stOk := true, stIll := false, seq := .idle
    time := s.time + env.duration s.draws, draws := s.draws + 1 }

/-- `TMR_ELAPSED`, opcode 0x02, writes the ticks since the epoch modulo 65536 where the epoch is valid, and a free value where it is not;
it does not restart the counter (R130, R131). -/
def Obligations.TmrElapsedReportsTheCounter : Prop :=
  decode (.cmd 0x0002) = .ok .tmrElapsed ∧ ∀ s : State, (s.epochValid = true → s.epoch ≤ s.time) →
    ∃ t, exec .tmrElapsed s = .next t ∧
      (s.epochValid = true → t.result.toNat = (s.time - s.epoch) % 65536) ∧
      (s.epochValid = false → t.result = env.elapsed s.draws) ∧
      t = { s with
        result := t.result, stOk := true, stIll := false, seq := .idle, time := t.time, draws := t.draws } ∧
      s.time ≤ t.time

/-- `TMR_DELAY`, opcode 0x03, lets `ARG0` ticks pass, exactly so many in the reference configuration and at most `DELAY_SLACK`
more in any, then its duration draw, and leaves the epoch invalid (R124, R132). That the epoch after it is a free value is the
model's choice (log 10). -/
def Obligations.TmrDelayWaitsItsOperand : Prop :=
  decode (.cmd 0x0003) = .ok .tmrDelay ∧
  (∀ s : State, exec .tmrDelay s = .next { s with
    epoch := env.epoch s.draws, epochValid := false, stOk := true, stIll := false, seq := .idle
    time := s.time + s.arg0.toNat + env.duration (s.draws + 1), draws := s.draws + 2 }) ∧
  (∀ (p : Params) (e : Env) (s : State), ∃ j t, j ≤ p.delaySlack ∧ execFor p e .tmrDelay s = .next t ∧
    t.time = s.time + s.arg0.toNat + j + e.duration (s.draws + 1) ∧
    t = { s with
      epoch := t.epoch, epochValid := false, stOk := true, stIll := false, seq := .idle
      time := t.time, draws := s.draws + 2 })

/-- `wait_level` returns `OK` exactly if the level is seen within the budget, at the first such tick and at most `POLL_SLACK`
later; otherwise `TIMEOUT` at the budget's last tick; and it touches only the time, the epoch and the draw index (R126,
R127). -/
def Obligations.WaitLevelReturnsAtTheFirstMatch : Prop :=
  ∀ (p : Params) (e : Env) (src : Nat → Bool) (v : Bool) (budget : Nat) (s : State), budget < p.tmrWrap →
    ∃ now n, (waitLevel p e src v budget s).2 = { s with epoch := s.time, time := now, draws := n } ∧
      now ≤ s.time + budget + p.pollSlack ∧
      ((waitLevel p e src v budget s).1 = true ↔ ∃ t, s.time ≤ t ∧ t ≤ s.time + budget ∧ src t = v) ∧
      ((waitLevel p e src v budget s).1 = false → now = s.time + budget) ∧
      (∀ d, s.time ≤ d → d ≤ s.time + budget → src d = v → (∀ u, s.time ≤ u → u < d → src u ≠ v) →
        d ≤ now ∧ now ≤ d + p.pollSlack)

/-! ## Single-wire engine -/

/-- `SWS_READ` always completes, with the line released, the epoch invalid and the sequencer idle, and changes only what R93
lists (R142, R152). -/
def Obligations.SwsReadCompletesReleased : Prop :=
  ∀ s : State, ∃ t, exec .swsRead s = .next t ∧
    t.swOe = false ∧ t.epochValid = false ∧ t.seq = .idle ∧ s.time + 18130 ≤ t.time ∧
    t = { s with
      swOe := false, epochValid := false, seq := .idle, stIll := false
      stOk := t.stOk, swData := t.swData, swTemp := t.swTemp, raw := t.raw, epoch := t.epoch
      time := t.time, draws := t.draws }

/-- A read that succeeds has raw bytes that pass the checksum and commits exactly them; a read that fails commits nothing
(R149, R150, R151). -/
def Obligations.SwsReadCommitsOnlyAnAcceptedFrame : Prop :=
  ∀ s : State, ∃ t, exec .swsRead s = .next t ∧
    (t.stOk = true → checksumHolds t.raw = true ∧ t.swData = t.raw ∧ t.swTemp = t.raw.tempInt) ∧
    (t.stOk = false → t.swData = s.swData ∧ t.swTemp = s.swTemp)

/-- The three stuck lines of R155: with no sensor the read fails 18130 ticks after it began, with the line shorted low too,
nothing written to `RAW`; and when the line stays high from the first bit's rise, every byte is 0x80 and the read fails on its
checksum. Nothing is committed in any of them. -/
def Obligations.StuckLinesFailTheResponse : Prop :=
  (∀ (e : Env) (s : State) (level : Bool), (∀ t, e.line t = level) →
    ∃ t, execFor params e .swsRead s = .next t ∧ t.stOk = false ∧ t.stIll = false ∧
      t.swData = s.swData ∧ t.swTemp = s.swTemp ∧ t.raw = s.raw ∧
      t.time = s.time + 18130 + e.duration (t.draws - 1)) ∧
  (∀ (e : Env) (s : State) (a b c j : Nat),
    responseOn e.line (s.time + 18030) a b c = true → j ≤ 100 →
    (∀ u, u < j → e.line (s.time + 18030 + a + b + c + u) = false) →
    (∀ t, s.time + 18030 + a + b + c + j ≤ t → e.line t = true) →
    ∃ t, execFor params e .swsRead s = .next t ∧ t.stOk = false ∧ t.stIll = false ∧
      t.swData = s.swData ∧ t.swTemp = s.swTemp ∧ t.raw = ⟨0x80, 0x80, 0x80, 0x80, 0x80⟩ ∧
      t.time = s.time + 18030 + a + b + c + j + 700 + e.duration (t.draws - 1))

/-- Whatever the line does, the read takes from 18130 to 27930 ticks before its duration draw (R153, R282). -/
def Obligations.SwsReadIsBounded : Prop :=
  ∀ (e : Env) (s : State), ∃ t d, execFor params e .swsRead s = .next t ∧
    18130 ≤ d ∧ d ≤ 27930 ∧ t.time = s.time + d + e.duration (t.draws - 1)

/-- The decoding threshold: a bit cell whose high phase lasts `L` ticks, and after which the line stays low until it has been
sampled, reads 1 exactly if `L` is at least 41 (R102, R146); one that ends within the wait for low is done at the fall, or 40
ticks after the rise if that is later. -/
def Obligations.BitReadsOneAboveFortyTicks : Prop :=
  ∀ (e : Env) (s : State) (j L : Nat), s.swOe = false → j ≤ 100 → 1 ≤ L →
    (∀ u, u < j → e.line (s.time + u) = false) →
    (∀ u, u < L → e.line (s.time + j + u) = true) →
    (∀ u, L ≤ u → u ≤ max L 40 → e.line (s.time + j + u) = false) →
    (readBits params e 1 0 s).1 = (if 41 ≤ L then 1 else 0) ∧
    (L ≤ 140 → (readBits params e 1 0 s).2.time = s.time + j + max L 40)

/-- A sensor's frame is received: after a response, 40 cells that spell five bytes leave exactly these bytes in `RAW`, and the
read succeeds and commits them if and only if the fifth is the sum of the other four modulo 256 (R101, R146, R149, R150, R157). -/
def Obligations.SensorFrameIsReceived : Prop :=
  ∀ (e : Env) (s : State) (a b c : Nat) (cells : List Cell) (h f t g k : Byte),
    responseOn e.line (s.time + 18030) a b c = true →
    cells.map Cell.bit = [h, f, t, g, k].flatMap bitsOfByte →
    cellsOn e.line cells (s.time + 18030 + a + b + c) = true →
    ∃ u, execFor params e .swsRead s = .next u ∧
      u.raw = ⟨h, f, t, g, k⟩ ∧
      u.stOk = decide (k.toNat = (h.toNat + f.toNat + t.toNat + g.toNat) % 256) ∧
      u.swData = (if u.stOk then ⟨h, f, t, g, k⟩ else s.swData) ∧
      u.swTemp = (if u.stOk then t else s.swTemp) ∧
      u.time = cellsEnd cells (s.time + 18030 + a + b + c) + e.duration (u.draws - 1)

/-- Bytes cut short. After fewer than eight whole cells a wait for high that times out ends the byte, and so does a wait for
low that times out, which keeps the bit just sampled too: the bits read stand from bit 7 down in the order read, every bit below
is 0 (R147, R148). So a sensor that answers and then holds the line low for 500 ticks is accepted with all-zero data (R154,
R314). -/
def Obligations.SilentFrameIsAccepted : Prop :=
  (∀ (e : Env) (s : State) (cells : List Cell), s.swOe = false → cells.length ≤ 7 → cellsOn e.line cells s.time = true →
    (∀ u, u ≤ 100 → e.line (cellsEnd cells s.time + u) = false) →
    (∀ n, n < 8 → (readBits params e 8 0 s).1.getLsbD (7 - n) = (cells.map Cell.bit).getD n false) ∧
    (readBits params e 8 0 s).2.time = cellsEnd cells s.time + 100) ∧
  (∀ (e : Env) (s : State) (cells : List Cell) (j : Nat), s.swOe = false → cells.length ≤ 7 →
    cellsOn e.line cells s.time = true → j ≤ 100 →
    (∀ u, u < j → e.line (cellsEnd cells s.time + u) = false) →
    (∀ u, u ≤ 140 → e.line (cellsEnd cells s.time + j + u) = true) →
    (∀ n, n < 8 → (readBits params e 8 0 s).1.getLsbD (7 - n) = (cells.map Cell.bit ++ [true]).getD n false) ∧
    (readBits params e 8 0 s).2.time = cellsEnd cells s.time + j + 140) ∧
  (∀ (e : Env) (s : State) (a b c : Nat),
    responseOn e.line (s.time + 18030) a b c = true →
    (∀ u, u ≤ 500 → e.line (s.time + 18030 + a + b + c + u) = false) →
    ∃ t, execFor params e .swsRead s = .next t ∧ t.stOk = true ∧
      t.swData = Reading.zero ∧ t.swTemp = 0 ∧
      t.time = s.time + 18030 + a + b + c + 500 + e.duration (t.draws - 1))

/-- Five received bytes are accepted and committed if and only if the fifth is the sum of the other four modulo 256, and
rejected with nothing committed otherwise (R149, R150, R151). That a frame is run as one instruction is the model's
choice (log 12). -/
def Obligations.FrameIsAcceptedByItsChecksum : Prop :=
  ∀ (h f t g k : Byte) (s : State), ∃ u, exec (.swFrame h f t g k) s = .next u ∧
    u.raw = ⟨h, f, t, g, k⟩ ∧ u.stIll = false ∧ u.seq = .idle ∧
    (k.toNat = (h.toNat + f.toNat + t.toNat + g.toNat) % 256 →
      u.stOk = true ∧ u.swData = ⟨h, f, t, g, k⟩ ∧ u.swTemp = t) ∧
    (k.toNat ≠ (h.toNat + f.toNat + t.toNat + g.toNat) % 256 →
      u.stOk = false ∧ u.swData = s.swData ∧ u.swTemp = s.swTemp) ∧
    u = { s with
      raw := u.raw, swData := u.swData, swTemp := u.swTemp, stOk := u.stOk, stIll := false, seq := .idle
      swOe := false, epochValid := false, epoch := u.epoch, time := u.time, draws := u.draws }

/-! ## Ranging engine -/

/-- `RNG_MEASURE` completes with `ST_OK` set on every path, a result in `0..20` or 999, the trigger low and the epoch invalid,
changes only what R93 lists (R172, R178, R179), and takes from 12 to 60012 ticks before its duration draw, whatever the echo
line does (R180, R282). -/
def Obligations.RngMeasureCompletesWithASentinelOrADistance : Prop :=
  (∀ s : State, ∃ t, exec .rngMeasure s = .next t ∧
    (t.result.toNat ≤ 20 ∨ t.result.toNat = 999) ∧
    t = { s with
      result := t.result, stOk := true, stIll := false, seq := .idle, trig := false, epochValid := false
      epoch := t.epoch, time := t.time, draws := t.draws }) ∧
  (∀ (e : Env) (s : State), ∃ t d, execFor params e .rngMeasure s = .next t ∧
    12 ≤ d ∧ d ≤ 60012 ∧ t.time = s.time + d + e.duration (t.draws - 1))

/-- An echo that rises `r` ticks after the pulse and lasts `w` ticks is measured: `17 w div 1000` up to 20 cm, 999 beyond, in
`12 + r + w` ticks (R172 to R177, R330). -/
def Obligations.EchoIsMeasured : Prop :=
  ∀ (e : Env) (s : State) (r w : Nat), r ≤ 30000 → 1 ≤ w → w ≤ 30000 →
    (∀ u, u < r → e.echo (s.time + 12 + u) = false) →
    (∀ u, u < w → e.echo (s.time + 12 + r + u) = true) →
    e.echo (s.time + 12 + r + w) = false →
    ∃ t, execFor params e .rngMeasure s = .next t ∧
      t.result.toNat = (if w ≤ 1235 then w * 17 / 1000 else 999) ∧ t.stOk = true ∧
      t.time = s.time + 12 + r + w + e.duration (t.draws - 1)

/-- With no rise within 30000 ticks the result is 0 after 30012 ticks; with a rise and no fall within 30000 more it is 999
(R174, R175, R181, R330). -/
def Obligations.MissingEdgesGiveTheSentinels : Prop :=
  ∀ (e : Env) (s : State),
    ((∀ u, u ≤ 30000 → e.echo (s.time + 12 + u) = false) →
      ∃ t, execFor params e .rngMeasure s = .next t ∧ t.result = 0 ∧ t.stOk = true ∧
        t.time = s.time + 30012 + e.duration (t.draws - 1)) ∧
    (∀ r, r ≤ 30000 → (∀ u, u < r → e.echo (s.time + 12 + u) = false) →
      (∀ u, u ≤ 30000 → e.echo (s.time + 12 + r + u) = true) →
      ∃ t, execFor params e .rngMeasure s = .next t ∧ t.result = 999 ∧ t.stOk = true ∧
        t.time = s.time + 12 + r + 30000 + e.duration (t.draws - 1))

/-! ## Framebuffer commands -/

/-- The pixel mapping is a bijection between the grid and the bits of the framebuffer (R61). -/
def Obligations.PixelMappingIsABijection : Prop :=
  ∀ p : Params, configErrors p = [] →
    (∀ x y, x < p.width → y < p.height →
      pixelIndex p x y < fbSize p ∧ pixelBit y < 8 ∧
      pixelIndex p x y % p.width = x ∧ 8 * (pixelIndex p x y / p.width) + pixelBit y = y) ∧
    (∀ i b, i < fbSize p → b < 8 →
      i % p.width < p.width ∧ 8 * (i / p.width) + b < p.height ∧
      pixelIndex p (i % p.width) (8 * (i / p.width) + b) = i ∧ pixelBit (8 * (i / p.width) + b) = b)

/-- `DSP_CLEAR`, opcode 0x32, zeroes every byte of the framebuffer, and so every pixel, and touches nothing else (R192). -/
def Obligations.ClearZeroesTheFramebuffer : Prop :=
  decode (.cmd 0x0032) = .ok .dspClear ∧ ∀ s : State, ∃ t, exec .dspClear s = .next t ∧
    (∀ i, i < 1024 → fbRead t i = 0) ∧ (∀ i, 1024 ≤ i → fbRead t i = fbRead s i) ∧
    (∀ x y, x < 128 → y < 64 → pixelAt params t x y = false) ∧
    t = { s with
      fb := t.fb, stOk := true, stIll := false, seq := .idle
      time := s.time + env.duration s.draws, draws := s.draws + 1 }

/-- `DSP_SET_PIXEL` in bounds: the pixel reads the colour, every other pixel and every other byte is as before, nothing else
but the flags changes (R194, R196). -/
def Obligations.SetPixelWritesOneBit : Prop :=
  ∀ s : State, s.arg0.toNat < 128 → s.arg1.toNat < 64 →
    ∃ t, exec .dspSetPixel s = .next t ∧
      pixelAt params t s.arg0.toNat s.arg1.toNat = s.arg2.getLsbD 0 ∧
      (∀ x y, x < 128 → y < 64 → (x ≠ s.arg0.toNat ∨ y ≠ s.arg1.toNat) →
        pixelAt params t x y = pixelAt params s x y) ∧
      (∀ i, i ≠ pixelIndex params s.arg0.toNat s.arg1.toNat → fbRead t i = fbRead s i) ∧
      t = { s with
        fb := t.fb, stOk := true, stIll := false, seq := .idle
        time := s.time + env.duration s.draws, draws := s.draws + 1 }

/-- `DSP_SET_PIXEL` out of bounds is ignored, not clamped, and still succeeds (R194, R195, R196). -/
def Obligations.SetPixelOutOfBoundsIsIgnored : Prop :=
  ∀ s : State, (128 ≤ s.arg0.toNat ∨ 64 ≤ s.arg1.toNat) →
    exec .dspSetPixel s = .next { s with
      stOk := true, stIll := false, seq := .idle, time := s.time + env.duration s.draws, draws := s.draws + 1 }

/-- `DSP_SET_CURSOR`, opcode 0x34, stores any pair of values as given and touches nothing else (R197). -/
def Obligations.SetCursorStoresItsOperands : Prop :=
  decode (.cmd 0x0034) = .ok .dspSetCursor ∧ ∀ s : State, exec .dspSetCursor s = .next { s with
    curX := s.arg0, curY := s.arg1, stOk := true, stIll := false, seq := .idle
    time := s.time + env.duration s.draws, draws := s.draws + 1 }

/-- `DSP_WRITE_CHAR` in font 0 paints the whole box opaquely, clipped at the edges, leaves every other pixel, advances the
cursor by the glyph width modulo 65536, and touches nothing else (R200 to R203). -/
def Obligations.WriteCharPaintsTheBox : Prop :=
  ∀ s : State, s.arg1 = 0 → ∃ t, exec .dspWriteChar s = .next t ∧
    (∀ x y, x < 128 → y < 64 →
      pixelAt params t x y =
        if s.curX.toNat ≤ x ∧ x < s.curX.toNat + 7 ∧ s.curY.toNat ≤ y ∧ y < s.curY.toNat + 10 then
          (if params.glyph (glyphCode params (s.arg0.setWidth 8)) (y - s.curY.toNat) (x - s.curX.toNat)
            then s.arg2.getLsbD 0 else !s.arg2.getLsbD 0)
        else pixelAt params s x y) ∧
    (∀ i, 1024 ≤ i → fbRead t i = fbRead s i) ∧
    t.curX.toNat = (s.curX.toNat + 7) % 65536 ∧
    t = { s with
      fb := t.fb, curX := t.curX, stOk := true, stIll := false, seq := .idle
      time := s.time + env.duration s.draws, draws := s.draws + 1 }

/-- The glyph code is the character code where the font holds it and 0x20 where it does not; it is always one the font holds;
and a code outside the font leaves exactly the state the space leaves, the operand itself apart (R67). -/
def Obligations.UnknownCodesRenderAsSpace : Prop :=
  ∀ (p : Params), configErrors p = [] →
    (∀ ch : Byte, p.fontFirst ≤ ch → ch ≤ p.fontLast → glyphCode p ch = ch) ∧
    (∀ ch : Byte, ch < p.fontFirst ∨ p.fontLast < ch → glyphCode p ch = 0x20) ∧
    (∀ ch : Byte, p.fontFirst ≤ glyphCode p ch ∧ glyphCode p ch ≤ p.fontLast) ∧
    (∀ (e : Env) (s : State) (v : Word), ((v.setWidth 8 : Byte) < p.fontFirst ∨ p.fontLast < (v.setWidth 8 : Byte)) →
      { dspWriteChar p e { s with arg0 := v } with arg0 := 0x20 } = dspWriteChar p e { s with arg0 := 0x20 })

/-- `DSP_WRITE_STRING` is its expansion: running the host accesses of R107 and R108 one step each leaves what the
pseudo-command leaves (R107, R108, R204). -/
def Obligations.WriteStringIsItsExpansion : Prop :=
  ∀ (s : State) (codes : List Byte) (font color : Word) (rest : List HostInput), s.seq = .idle →
    Host.Core.run Sys2Proof.core (4 * codes.length) { s with inbox := stringLines codes font color ++ rest } =
      exec (.dspWriteString codes font color) { s with inbox := rest }

/-- `DSP_WRITE_STRING` in font 0 moves the cursor by the glyph width per code, modulo 65536, keeps its row, and touches only the
framebuffer, the operands and the flags (R204). -/
def Obligations.WriteStringAdvancesTheCursor : Prop :=
  ∀ (s : State) (codes : List Byte) (color : Word), ∃ t, exec (.dspWriteString codes 0 color) s = .next t ∧
    t.curX.toNat = (s.curX.toNat + 7 * codes.length) % 65536 ∧ t.curY = s.curY ∧
    (∀ i, 1024 ≤ i → fbRead t i = fbRead s i) ∧
    t = { s with
      fb := t.fb, curX := t.curX, arg0 := t.arg0, arg1 := t.arg1, arg2 := t.arg2, stOk := t.stOk, stIll := t.stIll
      seq := t.seq, time := t.time, draws := t.draws }

/-! ## Bus commands -/

/-- `DSP_PROBE` while unbound: the primary address is queried, then the secondary; the first that acknowledges is bound and the
command succeeds; if neither does it fails, with the two queries on record (R230, R231). One trial per address is the
reference value (log 9). -/
def Obligations.ProbeBindsTheFirstToAnswer : Prop :=
  ∀ s : State, s.boundValid = false →
    ∃ t, exec .dspProbe s = .next t ∧ t.stIll = false ∧ t.seq = .idle ∧
      (if env.ack s.draws params.addrPrimary then
        t.stOk = true ∧ t.boundValid = true ∧ t.boundAddr = params.addrPrimary ∧
          t.trace = s.trace ++ [.ready params.addrPrimary true]
      else if env.ack (s.draws + 1) params.addrSecondary then
        t.stOk = true ∧ t.boundValid = true ∧ t.boundAddr = params.addrSecondary ∧
          t.trace = s.trace ++ [.ready params.addrPrimary false, .ready params.addrSecondary true]
      else t.stOk = false ∧ t.boundValid = false ∧ t.boundAddr = s.boundAddr ∧
          t.trace = s.trace ++ [.ready params.addrPrimary false, .ready params.addrSecondary false]) ∧
      t = { s with
        boundValid := t.boundValid, boundAddr := t.boundAddr, trace := t.trace, stOk := t.stOk, stIll := false
        seq := .idle, time := t.time, draws := t.draws }

/-- `DSP_INIT` while unbound completes: it succeeds exactly if it has bound an address, then with the whole framebuffer zero;
otherwise the framebuffer is as before; the cursor is not moved (R235, R239). -/
def Obligations.InitClearsExactlyIfItBinds : Prop :=
  ∀ s : State, s.boundValid = false →
    ∃ t, exec .dspInit s = .next t ∧ t.stOk = t.boundValid ∧
      (t.stOk = true → ∀ i, i < 1024 → fbRead t i = 0) ∧ (t.stOk = false → t.fb = s.fb ∧ t.tbuf = s.tbuf) ∧
      (∀ i, 1024 ≤ i → fbRead t i = fbRead s i) ∧
      t = { s with
        boundValid := t.boundValid, boundAddr := t.boundAddr, fb := t.fb, tbuf := t.tbuf, trace := t.trace
        stOk := t.stOk, stIll := false, seq := .idle, time := t.time, draws := t.draws }

/-- When no query is acknowledged, `DSP_PROBE` and `DSP_INIT` fail after exactly `PROBE_TRIALS` queries of each address, the
primary's first; no bus write, no clear, no binding; everything else is as before, but for the flags and the time (R231, R239,
R266, R273). -/
def Obligations.FailedInitWritesNothing : Prop :=
  ∀ (p : Params) (e : Env) (s : State) (i : Instr), s.boundValid = false →
    (∀ k, k < p.probeTrials → e.ack (s.draws + k) p.addrPrimary = false) →
    (∀ k, k < p.probeTrials → e.ack (s.draws + p.probeTrials + k) p.addrSecondary = false) →
    (i = .dspProbe ∨ i = .dspInit) →
    ∃ t, execFor p e i s = .next t ∧
      t = { s with
        trace := s.trace ++ List.replicate p.probeTrials (.ready p.addrPrimary false) ++
          List.replicate p.probeTrials (.ready p.addrSecondary false)
        stOk := false, stIll := false, seq := .idle, time := t.time, draws := t.draws } ∧
      s.time ≤ t.time

/-- `DSP_INIT` with an address that acknowledges appends its queries, one command transfer per byte of `INIT_SEQ`, one per byte
of `WINDOW_SEQ`, and 64 data transfers of sixteen zero bytes, all to the address bound, and nothing else; the cursor is not
moved (R235, R238). -/
def Obligations.InitSendsConfigurationThenAFlush : Prop :=
  ∀ (e : Env) (s : State), s.boundValid = false →
    (e.ack s.draws params.addrPrimary = true ∨ e.ack (s.draws + 1) params.addrSecondary = true) →
    ∃ t, execFor params e .dspInit s = .next t ∧ t.stOk = true ∧ t.boundValid = true ∧
      t.boundAddr = (if e.ack s.draws params.addrPrimary then params.addrPrimary else params.addrSecondary) ∧
      t.curX = s.curX ∧ t.curY = s.curY ∧
      t.trace = s.trace ++
        (if e.ack s.draws params.addrPrimary then [.ready params.addrPrimary true]
          else [.ready params.addrPrimary false, .ready params.addrSecondary true]) ++
        params.initSeq.map (fun c => .write t.boundAddr [0x00, c]) ++
        params.windowSeq.map (fun c => .write t.boundAddr [0x00, c]) ++
        List.replicate 64 (.write t.boundAddr (0x40 :: List.replicate 16 0))

/-- `DSP_FLUSH` while bound appends one command transfer per byte of `WINDOW_SEQ`, then 64 data transfers in ascending order, all to
the bound address, and changes neither framebuffer, cursor nor binding (R240, R242, R243). -/
def Obligations.FlushSendsWindowThenChunks : Prop :=
  ∀ s : State, s.boundValid = true →
    ∃ t, exec .dspFlush s = .next t ∧
      t.trace = s.trace ++ params.windowSeq.map (fun c => .write s.boundAddr [0x00, c]) ++
        (List.range 64).map (fun n => .write s.boundAddr
          (0x40 :: (List.range 16).map (fun j => fbRead s (16 * n + j)))) ∧
      t = { s with
        tbuf := t.tbuf, trace := t.trace, stOk := true, stIll := false, seq := .idle
        time := t.time, draws := t.draws }

/-- The content bytes of a flush, concatenated in transfer order, are the framebuffer in ascending order as it stood when the
flush began, for every configuration; the transfers are `CHUNK` bytes each (16 in the reference configuration), all to the bound
address (R74, R243). -/
def Obligations.FlushContentIsTheFramebuffer : Prop :=
  ∀ (p : Params) (e : Env) (s : State), configErrors p = [] →
    ∃ events, (flush p e s).trace = s.trace ++ p.windowSeq.map (fun c => .write s.boundAddr [p.ctrlCmd, c]) ++ events ∧
      events.length = fbSize p / p.chunk ∧
      events.flatMap (fun ev => match ev with
        | .ready _ _ => []
        | .write _ payload => payload.drop 1) = (List.range (fbSize p)).map (fun i => fbRead s i) ∧
      ∀ ev ∈ events, ∃ content, ev = .write s.boundAddr (p.ctrlData :: content) ∧ content.length = p.chunk

/-- The bus formats as single accesses: each records its one event and takes a draw of time, a data transfer leaves its payload in
`TBUF`, and a data transfer of any other length stops with the fault that says so (R97 to R100, R221, R222, R227). That a
wire format is run as an instruction is the model's choice (log 11, 21). -/
def Obligations.BusAccessesRecordTheirEvent : Prop :=
  (∀ (a : Addr7) (c : Byte) (s : State), exec (.busCmdTransfer a c) s = .next { s with
    trace := s.trace ++ [.write a [0x00, c]], time := s.time + env.duration s.draws, draws := s.draws + 1 }) ∧
  (∀ (a : Addr7) (d : List Byte) (s : State), d.length = 16 → exec (.busDataTransfer a d) s = .next { s with
    tbuf := 0x40 :: d, trace := s.trace ++ [.write a (0x40 :: d)]
    time := s.time + env.duration s.draws, draws := s.draws + 1 }) ∧
  (∀ (a : Addr7) (d : List Byte) (s : State), d.length ≠ 16 →
    exec (.busDataTransfer a d) s = .fault .transferLength) ∧
  (∀ (a : Addr7) (s : State), exec (.busReadyQuery a) s = .next { s with
    trace := s.trace ++ [.ready a (env.ack s.draws a)]
    time := s.time + env.duration s.draws, draws := s.draws + 1 })

/-! ## Whole-machine rules -/

/-- Only `TMR_ELAPSED` and `RNG_MEASURE` write `RESULT`, over every instruction; a host write of any register leaves it alone
(R26). -/
def Obligations.OnlyTwoCommandsWriteResult : Prop :=
  (∀ (i : Instr) (s t : State), exec i s = .next t → t.result ≠ s.result → i = .tmrElapsed ∨ i = .rngMeasure) ∧
  (∀ (index : BitVec 4) (v : Word) (s : State), (regWrite index v s).result = s.result)

/-- No command writes its operands: after any instruction but the host's own string line, `ARG0..2` hold what the host last wrote
(R25). -/
def Obligations.CommandsNeverWriteOperands : Prop :=
  ∀ (i : Instr) (s t : State), (∀ codes font color, i ≠ .dspWriteString codes font color) → exec i s = .next t →
    t.arg0 = s.arg0 ∧ t.arg1 = s.arg1 ∧ t.arg2 = s.arg2

/-- The framebuffer changes only by `DSP_CLEAR`, `DSP_SET_PIXEL`, `DSP_WRITE_CHAR` (and strings of it) and `DSP_INIT`; the cursor
only by `DSP_SET_CURSOR` and `DSP_WRITE_CHAR`; the sensor registers only by `SWS_READ` and a received frame (R32 to R34, R62,
R93). -/
def Obligations.EachUnitWritesOnlyItsOwn : Prop :=
  ∀ (i : Instr) (s t : State), exec i s = .next t →
    (t.fb ≠ s.fb → i = .dspClear ∨ i = .dspSetPixel ∨ i = .dspWriteChar ∨ i = .dspInit ∨
      ∃ codes font color, i = .dspWriteString codes font color) ∧
    ((t.curX ≠ s.curX ∨ t.curY ≠ s.curY) → i = .dspSetCursor ∨ i = .dspWriteChar ∨
      ∃ codes font color, i = .dspWriteString codes font color) ∧
    ((t.swData ≠ s.swData ∨ t.swTemp ≠ s.swTemp) → i = .swsRead ∨ ∃ h f x g k, i = .swFrame h f x g k)

/-- Only the bus commands and the bus formats append to `TRACE`: in particular no in-memory command produces bus traffic (R72, R93,
R206). -/
def Obligations.InMemoryCommandsAreSilent : Prop :=
  ∀ (i : Instr) (s t : State), exec i s = .next t → t.trace ≠ s.trace →
    i = .dspProbe ∨ i = .dspInit ∨ i = .dspFlush ∨
      (∃ a c, i = .busCmdTransfer a c) ∨ (∃ a d, i = .busDataTransfer a d) ∨ (∃ a, i = .busReadyQuery a)

/-- A valid epoch survives every instruction but `TMR_START`, `TMR_DELAY`, `SWS_READ`, `RNG_MEASURE` and a received frame: the display
commands leave it alone (R29, R312). -/
def Obligations.DisplayCommandsKeepTheEpoch : Prop :=
  ∀ (i : Instr) (s t : State), exec i s = .next t → (t.epoch ≠ s.epoch ∨ t.epochValid ≠ s.epochValid) →
    i = .tmrStart ∨ i = .tmrDelay ∨ i = .swsRead ∨ i = .rngMeasure ∨ ∃ h f x g k, i = .swFrame h f x g k

/-- The binding is permanent: from a bound state in which the sequencer is not querying addresses, every step but a reset leaves
the block bound to the same address and the sequencer again not querying (R35, R232). That a bound block never queries is
`SequencerInv`, which holds at reset and which every step keeps. -/
def Obligations.BindingIsPermanent : Prop :=
  ∀ s t : State, step s = .next t → s.boundValid = true → (∀ rest, s.inbox ≠ .rst :: rest) →
    (∀ init second n, s.seq ≠ .dspProbe init second n) →
    t.boundValid = true ∧ t.boundAddr = s.boundAddr ∧ (∀ init second n, t.seq ≠ .dspProbe init second n)

/-- Time only grows and `TRACE` is only appended to, in every step, a reset included (R38, R71, R120). -/
def Obligations.TimeAndTraceOnlyGrow : Prop :=
  ∀ s t : State, step s = .next t → s.time ≤ t.time ∧ s.trace <+: t.trace

/-- The scratch registers never matter: two states that differ only in `RAW`, `TBUF` and, while it is invalid, the epoch give the same
result of every instruction but in these, with the same draws (R36, 93_implementation_defined.md U23). That the two runs have
the same draws, because a draw is a function of the draw counter alone, is the model's choice (log 4): R131 puts the value
`TMR_ELAPSED` reports with an invalid epoch under no law, so a block may let it follow the hidden counter. -/
def Obligations.ScratchNeverMatters : Prop :=
  ∀ (i : Instr) (s t : State) (ep : Nat) (raw : Reading) (tbuf : List Byte),
    (s.epochValid = true → ep = s.epoch) → exec i s = .next t →
    ∃ ep' raw' tbuf',
      exec i { s with epoch := ep, raw := raw, tbuf := tbuf } =
        .next { t with epoch := ep', raw := raw', tbuf := tbuf' } ∧
      (t.epochValid = true → ep' = t.epoch)

/-! ## Invariants -/

/-- Every step keeps the framebuffer canonical and inside its `FB_SIZE` bytes: no command forms an index outside (R60, R62). The
canonical form is the model's (log 16). -/
def Obligations.StepKeepsTheFramebuffer : Prop :=
  ∀ s t : State, FramebufferInv params s → step s = .next t → FramebufferInv params t

/-- Every step keeps the committed reading consistent: `SW_DATA4` is the sum of the others modulo 256 and `SW_TEMP = SW_DATA2` (R32,
R33). -/
def Obligations.StepKeepsTheReading : Prop :=
  ∀ s t : State, ReadingInv s → step s = .next t → ReadingInv t

/-- Every step keeps the binding one of the two candidate addresses, or 0 while unbound, and never leaves `ST_OK` and `ST_ILL` both set
(R29, R35, R104); and it keeps the sequencer's indices in their ranges, its queries to an unbound block and its bus writes to a
bound one (R28, R224). -/
def Obligations.StepKeepsBindingAndStatus : Prop :=
  (∀ s t : State, BindingInv params s → StatusInv s → step s = .next t → BindingInv params t ∧ StatusInv t) ∧
  (∀ s t : State, SequencerInv params s → step s = .next t → SequencerInv params t)

/-- Every step keeps the lines quiet outside their phases, so that between commands the sensor line is released and the trigger
low, and a valid epoch in the past with no sensor command running, since those clear `EPOCH_VALID` first and `TMR_DELAY` after
its delay (R36, R132, R141, R142, R152, R172, R312). -/
def Obligations.StepKeepsLinesAndTimer : Prop :=
  ∀ s t : State, LinesInv s → TimerInv s → step s = .next t → LinesInv t ∧ TimerInv t

/-- Every step keeps `TBUF` at 17 bytes and every recorded event in one of the three shapes (R94, R96, R100). -/
def Obligations.StepKeepsTheBusShapes : Prop :=
  ∀ s t : State, BusInv s → step s = .next t → BusInv t

/-- All the invariants hold at reset. -/
def Obligations.InvariantsHoldAtReset : Prop :=
  FramebufferInv params State.reset ∧ ReadingInv State.reset ∧ BindingInv params State.reset ∧ StatusInv State.reset ∧
    SequencerInv params State.reset ∧ LinesInv State.reset ∧ TimerInv State.reset ∧ BusInv State.reset

/-! ## The sequencer -/

/-- The sequencer carries every command to the result its command-level meaning gives, in every legal configuration with the
bounded wait and in every environment: the table of R160 and the pseudocode define the same relation (R28, R161). The rows of
every engine but the single-wire one, and that a row which takes no time is a step of its own, are the model's choice
(log 15). -/
def Obligations.SequencerReachesTheCommandResult : Prop :=
  ∀ (p : Params) (e : Env) (w : Word) (s : State), configErrors p = [] → p.lowWaitBounded = true → s.seq = .idle →
    ∃ n, (seqRun p e n (seqBegin p e (decodeCmd w) s)).seq = .idle ∧
      execFor p e (decodeCmd w) s = .next (seqRun p e n (seqBegin p e (decodeCmd w) s))

/-- The pulses: from the `CMD` write `SWS_READ` pulls the line for exactly 18000 ticks and then leaves it released for exactly 30
before the first response wait; `RNG_MEASURE` holds the trigger low for exactly 2 ticks, high for exactly 10, then low, and the
echo wait begins there (R143, R173). The row count is the model's; the ticks are the spec's. -/
def Obligations.StartAndTriggerPulsesAreExact : Prop :=
  ∀ (e : Env) (s : State),
    (∀ n, n ≤ 18000 → (seqRun params e n (swsBegin s)).swOe = true ∧
      (seqRun params e n (swsBegin s)).time = s.time + n) ∧
    (∀ n, 18001 ≤ n → n ≤ 18031 → (seqRun params e n (swsBegin s)).swOe = false ∧
      (seqRun params e n (swsBegin s)).seq = .swStartHigh ∧
      (seqRun params e n (swsBegin s)).time = s.time + (n - 1)) ∧
    (seqRun params e 18032 (swsBegin s)).seq = .swRespLow1 ∧
    (seqRun params e 18032 (swsBegin s)).time = s.time + 18030 ∧
    (∀ n, n ≤ 2 → (seqRun params e n (seqBegin params e .rngMeasure s)).trig = false ∧
      (seqRun params e n (seqBegin params e .rngMeasure s)).time = s.time + n) ∧
    (∀ n, 3 ≤ n → n ≤ 13 → (seqRun params e n (seqBegin params e .rngMeasure s)).trig = true ∧
      (seqRun params e n (seqBegin params e .rngMeasure s)).time = s.time + (n - 1)) ∧
    (seqRun params e 14 (seqBegin params e .rngMeasure s)).trig = false ∧
    (seqRun params e 14 (seqBegin params e .rngMeasure s)).seq = .rngWaitRise ∧
    (seqRun params e 14 (seqBegin params e .rngMeasure s)).time = s.time + 12

/-- A wait for low without a bound never ends while the line stays high: with `SW_LOW_WAIT_BOUNDED = false` the command hangs, the block
only counts ticks (R148, 93_implementation_defined.md U14). -/
def Obligations.UnboundedLowWaitHangs : Prop :=
  ∀ (p : Params) (e : Env) (s : State) (k i : Nat) (b : Byte) (n : Nat), p.lowWaitBounded = false →
    s.seq = .swBitWaitLow k i b → s.swOe = false → (∀ t, s.time ≤ t → e.line t = true) →
    seqRun p e n s = { s with time := s.time + n }
end

