-- ==== Sys2Proof/Laws/State.lean ====
section
/-! SUPPORT. What each named operation does to each field of State, one lemma per field per operation, so that no later
proof unfolds a record update. -/

namespace Sys2Proof.Machine

@[simp] theorem lapse_arg0 (e : Env) (s : State) : (lapse e s).arg0 = s.arg0 := rfl
@[simp] theorem lapse_arg1 (e : Env) (s : State) : (lapse e s).arg1 = s.arg1 := rfl
@[simp] theorem lapse_arg2 (e : Env) (s : State) : (lapse e s).arg2 = s.arg2 := rfl
@[simp] theorem lapse_result (e : Env) (s : State) : (lapse e s).result = s.result := rfl
@[simp] theorem lapse_stOk (e : Env) (s : State) : (lapse e s).stOk = s.stOk := rfl
@[simp] theorem lapse_stIll (e : Env) (s : State) : (lapse e s).stIll = s.stIll := rfl
@[simp] theorem lapse_boundValid (e : Env) (s : State) : (lapse e s).boundValid = s.boundValid := rfl
@[simp] theorem lapse_epochValid (e : Env) (s : State) : (lapse e s).epochValid = s.epochValid := rfl
@[simp] theorem lapse_swData (e : Env) (s : State) : (lapse e s).swData = s.swData := rfl
@[simp] theorem lapse_swTemp (e : Env) (s : State) : (lapse e s).swTemp = s.swTemp := rfl
@[simp] theorem lapse_curX (e : Env) (s : State) : (lapse e s).curX = s.curX := rfl
@[simp] theorem lapse_curY (e : Env) (s : State) : (lapse e s).curY = s.curY := rfl
@[simp] theorem lapse_boundAddr (e : Env) (s : State) : (lapse e s).boundAddr = s.boundAddr := rfl
@[simp] theorem lapse_fb (e : Env) (s : State) : (lapse e s).fb = s.fb := rfl
@[simp] theorem lapse_epoch (e : Env) (s : State) : (lapse e s).epoch = s.epoch := rfl
@[simp] theorem lapse_raw (e : Env) (s : State) : (lapse e s).raw = s.raw := rfl
@[simp] theorem lapse_swOe (e : Env) (s : State) : (lapse e s).swOe = s.swOe := rfl
@[simp] theorem lapse_trig (e : Env) (s : State) : (lapse e s).trig = s.trig := rfl
@[simp] theorem lapse_seq (e : Env) (s : State) : (lapse e s).seq = s.seq := rfl
@[simp] theorem lapse_tbuf (e : Env) (s : State) : (lapse e s).tbuf = s.tbuf := rfl
@[simp] theorem lapse_time (e : Env) (s : State) : (lapse e s).time = s.time + e.duration s.draws := rfl
@[simp] theorem lapse_trace (e : Env) (s : State) : (lapse e s).trace = s.trace := rfl
@[simp] theorem lapse_draws (e : Env) (s : State) : (lapse e s).draws = s.draws + 1 := rfl
@[simp] theorem lapse_rdata (e : Env) (s : State) : (lapse e s).rdata = s.rdata := rfl
@[simp] theorem lapse_inbox (e : Env) (s : State) : (lapse e s).inbox = s.inbox := rfl

@[simp] theorem finish_arg0 (e : Env) (ok ill : Bool) (s : State) : (finish e ok ill s).arg0 = s.arg0 := rfl
@[simp] theorem finish_arg1 (e : Env) (ok ill : Bool) (s : State) : (finish e ok ill s).arg1 = s.arg1 := rfl
@[simp] theorem finish_arg2 (e : Env) (ok ill : Bool) (s : State) : (finish e ok ill s).arg2 = s.arg2 := rfl
@[simp] theorem finish_result (e : Env) (ok ill : Bool) (s : State) : (finish e ok ill s).result = s.result := rfl
@[simp] theorem finish_stOk (e : Env) (ok ill : Bool) (s : State) : (finish e ok ill s).stOk = ok := rfl
@[simp] theorem finish_stIll (e : Env) (ok ill : Bool) (s : State) : (finish e ok ill s).stIll = ill := rfl
@[simp] theorem finish_boundValid (e : Env) (ok ill : Bool) (s : State) : (finish e ok ill s).boundValid = s.boundValid := rfl
@[simp] theorem finish_epochValid (e : Env) (ok ill : Bool) (s : State) : (finish e ok ill s).epochValid = s.epochValid := rfl
@[simp] theorem finish_swData (e : Env) (ok ill : Bool) (s : State) : (finish e ok ill s).swData = s.swData := rfl
@[simp] theorem finish_swTemp (e : Env) (ok ill : Bool) (s : State) : (finish e ok ill s).swTemp = s.swTemp := rfl
@[simp] theorem finish_curX (e : Env) (ok ill : Bool) (s : State) : (finish e ok ill s).curX = s.curX := rfl
@[simp] theorem finish_curY (e : Env) (ok ill : Bool) (s : State) : (finish e ok ill s).curY = s.curY := rfl
@[simp] theorem finish_boundAddr (e : Env) (ok ill : Bool) (s : State) : (finish e ok ill s).boundAddr = s.boundAddr := rfl
@[simp] theorem finish_fb (e : Env) (ok ill : Bool) (s : State) : (finish e ok ill s).fb = s.fb := rfl
@[simp] theorem finish_epoch (e : Env) (ok ill : Bool) (s : State) : (finish e ok ill s).epoch = s.epoch := rfl
@[simp] theorem finish_raw (e : Env) (ok ill : Bool) (s : State) : (finish e ok ill s).raw = s.raw := rfl
@[simp] theorem finish_swOe (e : Env) (ok ill : Bool) (s : State) : (finish e ok ill s).swOe = s.swOe := rfl
@[simp] theorem finish_trig (e : Env) (ok ill : Bool) (s : State) : (finish e ok ill s).trig = s.trig := rfl
@[simp] theorem finish_seq (e : Env) (ok ill : Bool) (s : State) : (finish e ok ill s).seq = .idle := rfl
@[simp] theorem finish_tbuf (e : Env) (ok ill : Bool) (s : State) : (finish e ok ill s).tbuf = s.tbuf := rfl
@[simp] theorem finish_time (e : Env) (ok ill : Bool) (s : State) : (finish e ok ill s).time = s.time + e.duration s.draws := rfl
@[simp] theorem finish_trace (e : Env) (ok ill : Bool) (s : State) : (finish e ok ill s).trace = s.trace := rfl
@[simp] theorem finish_draws (e : Env) (ok ill : Bool) (s : State) : (finish e ok ill s).draws = s.draws + 1 := rfl
@[simp] theorem finish_rdata (e : Env) (ok ill : Bool) (s : State) : (finish e ok ill s).rdata = s.rdata := rfl
@[simp] theorem finish_inbox (e : Env) (ok ill : Bool) (s : State) : (finish e ok ill s).inbox = s.inbox := rfl

@[simp] theorem succeed_arg0 (e : Env) (s : State) : (succeed e s).arg0 = s.arg0 := rfl
@[simp] theorem succeed_arg1 (e : Env) (s : State) : (succeed e s).arg1 = s.arg1 := rfl
@[simp] theorem succeed_arg2 (e : Env) (s : State) : (succeed e s).arg2 = s.arg2 := rfl
@[simp] theorem succeed_result (e : Env) (s : State) : (succeed e s).result = s.result := rfl
@[simp] theorem succeed_stOk (e : Env) (s : State) : (succeed e s).stOk = true := rfl
@[simp] theorem succeed_stIll (e : Env) (s : State) : (succeed e s).stIll = false := rfl
@[simp] theorem succeed_boundValid (e : Env) (s : State) : (succeed e s).boundValid = s.boundValid := rfl
@[simp] theorem succeed_epochValid (e : Env) (s : State) : (succeed e s).epochValid = s.epochValid := rfl
@[simp] theorem succeed_swData (e : Env) (s : State) : (succeed e s).swData = s.swData := rfl
@[simp] theorem succeed_swTemp (e : Env) (s : State) : (succeed e s).swTemp = s.swTemp := rfl
@[simp] theorem succeed_curX (e : Env) (s : State) : (succeed e s).curX = s.curX := rfl
@[simp] theorem succeed_curY (e : Env) (s : State) : (succeed e s).curY = s.curY := rfl
@[simp] theorem succeed_boundAddr (e : Env) (s : State) : (succeed e s).boundAddr = s.boundAddr := rfl
@[simp] theorem succeed_fb (e : Env) (s : State) : (succeed e s).fb = s.fb := rfl
@[simp] theorem succeed_epoch (e : Env) (s : State) : (succeed e s).epoch = s.epoch := rfl
@[simp] theorem succeed_raw (e : Env) (s : State) : (succeed e s).raw = s.raw := rfl
@[simp] theorem succeed_swOe (e : Env) (s : State) : (succeed e s).swOe = s.swOe := rfl
@[simp] theorem succeed_trig (e : Env) (s : State) : (succeed e s).trig = s.trig := rfl
@[simp] theorem succeed_seq (e : Env) (s : State) : (succeed e s).seq = .idle := rfl
@[simp] theorem succeed_tbuf (e : Env) (s : State) : (succeed e s).tbuf = s.tbuf := rfl
@[simp] theorem succeed_time (e : Env) (s : State) : (succeed e s).time = s.time + e.duration s.draws := rfl
@[simp] theorem succeed_trace (e : Env) (s : State) : (succeed e s).trace = s.trace := rfl
@[simp] theorem succeed_draws (e : Env) (s : State) : (succeed e s).draws = s.draws + 1 := rfl
@[simp] theorem succeed_rdata (e : Env) (s : State) : (succeed e s).rdata = s.rdata := rfl
@[simp] theorem succeed_inbox (e : Env) (s : State) : (succeed e s).inbox = s.inbox := rfl

@[simp] theorem fail_arg0 (e : Env) (s : State) : (fail e s).arg0 = s.arg0 := rfl
@[simp] theorem fail_arg1 (e : Env) (s : State) : (fail e s).arg1 = s.arg1 := rfl
@[simp] theorem fail_arg2 (e : Env) (s : State) : (fail e s).arg2 = s.arg2 := rfl
@[simp] theorem fail_result (e : Env) (s : State) : (fail e s).result = s.result := rfl
@[simp] theorem fail_stOk (e : Env) (s : State) : (fail e s).stOk = false := rfl
@[simp] theorem fail_stIll (e : Env) (s : State) : (fail e s).stIll = false := rfl
@[simp] theorem fail_boundValid (e : Env) (s : State) : (fail e s).boundValid = s.boundValid := rfl
@[simp] theorem fail_epochValid (e : Env) (s : State) : (fail e s).epochValid = s.epochValid := rfl
@[simp] theorem fail_swData (e : Env) (s : State) : (fail e s).swData = s.swData := rfl
@[simp] theorem fail_swTemp (e : Env) (s : State) : (fail e s).swTemp = s.swTemp := rfl
@[simp] theorem fail_curX (e : Env) (s : State) : (fail e s).curX = s.curX := rfl
@[simp] theorem fail_curY (e : Env) (s : State) : (fail e s).curY = s.curY := rfl
@[simp] theorem fail_boundAddr (e : Env) (s : State) : (fail e s).boundAddr = s.boundAddr := rfl
@[simp] theorem fail_fb (e : Env) (s : State) : (fail e s).fb = s.fb := rfl
@[simp] theorem fail_epoch (e : Env) (s : State) : (fail e s).epoch = s.epoch := rfl
@[simp] theorem fail_raw (e : Env) (s : State) : (fail e s).raw = s.raw := rfl
@[simp] theorem fail_swOe (e : Env) (s : State) : (fail e s).swOe = s.swOe := rfl
@[simp] theorem fail_trig (e : Env) (s : State) : (fail e s).trig = s.trig := rfl
@[simp] theorem fail_seq (e : Env) (s : State) : (fail e s).seq = .idle := rfl
@[simp] theorem fail_tbuf (e : Env) (s : State) : (fail e s).tbuf = s.tbuf := rfl
@[simp] theorem fail_time (e : Env) (s : State) : (fail e s).time = s.time + e.duration s.draws := rfl
@[simp] theorem fail_trace (e : Env) (s : State) : (fail e s).trace = s.trace := rfl
@[simp] theorem fail_draws (e : Env) (s : State) : (fail e s).draws = s.draws + 1 := rfl
@[simp] theorem fail_rdata (e : Env) (s : State) : (fail e s).rdata = s.rdata := rfl
@[simp] theorem fail_inbox (e : Env) (s : State) : (fail e s).inbox = s.inbox := rfl

@[simp] theorem refuse_arg0 (e : Env) (s : State) : (refuse e s).arg0 = s.arg0 := rfl
@[simp] theorem refuse_arg1 (e : Env) (s : State) : (refuse e s).arg1 = s.arg1 := rfl
@[simp] theorem refuse_arg2 (e : Env) (s : State) : (refuse e s).arg2 = s.arg2 := rfl
@[simp] theorem refuse_result (e : Env) (s : State) : (refuse e s).result = s.result := rfl
@[simp] theorem refuse_stOk (e : Env) (s : State) : (refuse e s).stOk = false := rfl
@[simp] theorem refuse_stIll (e : Env) (s : State) : (refuse e s).stIll = true := rfl
@[simp] theorem refuse_boundValid (e : Env) (s : State) : (refuse e s).boundValid = s.boundValid := rfl
@[simp] theorem refuse_epochValid (e : Env) (s : State) : (refuse e s).epochValid = s.epochValid := rfl
@[simp] theorem refuse_swData (e : Env) (s : State) : (refuse e s).swData = s.swData := rfl
@[simp] theorem refuse_swTemp (e : Env) (s : State) : (refuse e s).swTemp = s.swTemp := rfl
@[simp] theorem refuse_curX (e : Env) (s : State) : (refuse e s).curX = s.curX := rfl
@[simp] theorem refuse_curY (e : Env) (s : State) : (refuse e s).curY = s.curY := rfl
@[simp] theorem refuse_boundAddr (e : Env) (s : State) : (refuse e s).boundAddr = s.boundAddr := rfl
@[simp] theorem refuse_fb (e : Env) (s : State) : (refuse e s).fb = s.fb := rfl
@[simp] theorem refuse_epoch (e : Env) (s : State) : (refuse e s).epoch = s.epoch := rfl
@[simp] theorem refuse_raw (e : Env) (s : State) : (refuse e s).raw = s.raw := rfl
@[simp] theorem refuse_swOe (e : Env) (s : State) : (refuse e s).swOe = s.swOe := rfl
@[simp] theorem refuse_trig (e : Env) (s : State) : (refuse e s).trig = s.trig := rfl
@[simp] theorem refuse_seq (e : Env) (s : State) : (refuse e s).seq = .idle := rfl
@[simp] theorem refuse_tbuf (e : Env) (s : State) : (refuse e s).tbuf = s.tbuf := rfl
@[simp] theorem refuse_time (e : Env) (s : State) : (refuse e s).time = s.time + e.duration s.draws := rfl
@[simp] theorem refuse_trace (e : Env) (s : State) : (refuse e s).trace = s.trace := rfl
@[simp] theorem refuse_draws (e : Env) (s : State) : (refuse e s).draws = s.draws + 1 := rfl
@[simp] theorem refuse_rdata (e : Env) (s : State) : (refuse e s).rdata = s.rdata := rfl
@[simp] theorem refuse_inbox (e : Env) (s : State) : (refuse e s).inbox = s.inbox := rfl

@[simp] theorem tmrStart_arg0 (s : State) : (tmrStart s).arg0 = s.arg0 := rfl
@[simp] theorem tmrStart_arg1 (s : State) : (tmrStart s).arg1 = s.arg1 := rfl
@[simp] theorem tmrStart_arg2 (s : State) : (tmrStart s).arg2 = s.arg2 := rfl
@[simp] theorem tmrStart_result (s : State) : (tmrStart s).result = s.result := rfl
@[simp] theorem tmrStart_stOk (s : State) : (tmrStart s).stOk = s.stOk := rfl
@[simp] theorem tmrStart_stIll (s : State) : (tmrStart s).stIll = s.stIll := rfl
@[simp] theorem tmrStart_boundValid (s : State) : (tmrStart s).boundValid = s.boundValid := rfl
@[simp] theorem tmrStart_epochValid (s : State) : (tmrStart s).epochValid = s.epochValid := rfl
@[simp] theorem tmrStart_swData (s : State) : (tmrStart s).swData = s.swData := rfl
@[simp] theorem tmrStart_swTemp (s : State) : (tmrStart s).swTemp = s.swTemp := rfl
@[simp] theorem tmrStart_curX (s : State) : (tmrStart s).curX = s.curX := rfl
@[simp] theorem tmrStart_curY (s : State) : (tmrStart s).curY = s.curY := rfl
@[simp] theorem tmrStart_boundAddr (s : State) : (tmrStart s).boundAddr = s.boundAddr := rfl
@[simp] theorem tmrStart_fb (s : State) : (tmrStart s).fb = s.fb := rfl
@[simp] theorem tmrStart_epoch (s : State) : (tmrStart s).epoch = s.time := rfl
@[simp] theorem tmrStart_raw (s : State) : (tmrStart s).raw = s.raw := rfl
@[simp] theorem tmrStart_swOe (s : State) : (tmrStart s).swOe = s.swOe := rfl
@[simp] theorem tmrStart_trig (s : State) : (tmrStart s).trig = s.trig := rfl
@[simp] theorem tmrStart_seq (s : State) : (tmrStart s).seq = s.seq := rfl
@[simp] theorem tmrStart_tbuf (s : State) : (tmrStart s).tbuf = s.tbuf := rfl
@[simp] theorem tmrStart_time (s : State) : (tmrStart s).time = s.time := rfl
@[simp] theorem tmrStart_trace (s : State) : (tmrStart s).trace = s.trace := rfl
@[simp] theorem tmrStart_draws (s : State) : (tmrStart s).draws = s.draws := rfl
@[simp] theorem tmrStart_rdata (s : State) : (tmrStart s).rdata = s.rdata := rfl
@[simp] theorem tmrStart_inbox (s : State) : (tmrStart s).inbox = s.inbox := rfl

@[simp] theorem overshoot_arg0 (p : Params) (e : Env) (s : State) : (overshoot p e s).arg0 = s.arg0 := rfl
@[simp] theorem overshoot_arg1 (p : Params) (e : Env) (s : State) : (overshoot p e s).arg1 = s.arg1 := rfl
@[simp] theorem overshoot_arg2 (p : Params) (e : Env) (s : State) : (overshoot p e s).arg2 = s.arg2 := rfl
@[simp] theorem overshoot_result (p : Params) (e : Env) (s : State) : (overshoot p e s).result = s.result := rfl
@[simp] theorem overshoot_stOk (p : Params) (e : Env) (s : State) : (overshoot p e s).stOk = s.stOk := rfl
@[simp] theorem overshoot_stIll (p : Params) (e : Env) (s : State) : (overshoot p e s).stIll = s.stIll := rfl
@[simp] theorem overshoot_boundValid (p : Params) (e : Env) (s : State) : (overshoot p e s).boundValid = s.boundValid := rfl
@[simp] theorem overshoot_epochValid (p : Params) (e : Env) (s : State) : (overshoot p e s).epochValid = s.epochValid := rfl
@[simp] theorem overshoot_swData (p : Params) (e : Env) (s : State) : (overshoot p e s).swData = s.swData := rfl
@[simp] theorem overshoot_swTemp (p : Params) (e : Env) (s : State) : (overshoot p e s).swTemp = s.swTemp := rfl
@[simp] theorem overshoot_curX (p : Params) (e : Env) (s : State) : (overshoot p e s).curX = s.curX := rfl
@[simp] theorem overshoot_curY (p : Params) (e : Env) (s : State) : (overshoot p e s).curY = s.curY := rfl
@[simp] theorem overshoot_boundAddr (p : Params) (e : Env) (s : State) : (overshoot p e s).boundAddr = s.boundAddr := rfl
@[simp] theorem overshoot_fb (p : Params) (e : Env) (s : State) : (overshoot p e s).fb = s.fb := rfl
@[simp] theorem overshoot_epoch (p : Params) (e : Env) (s : State) : (overshoot p e s).epoch = e.epoch s.draws := rfl
@[simp] theorem overshoot_raw (p : Params) (e : Env) (s : State) : (overshoot p e s).raw = s.raw := rfl
@[simp] theorem overshoot_swOe (p : Params) (e : Env) (s : State) : (overshoot p e s).swOe = s.swOe := rfl
@[simp] theorem overshoot_trig (p : Params) (e : Env) (s : State) : (overshoot p e s).trig = s.trig := rfl
@[simp] theorem overshoot_seq (p : Params) (e : Env) (s : State) : (overshoot p e s).seq = s.seq := rfl
@[simp] theorem overshoot_tbuf (p : Params) (e : Env) (s : State) : (overshoot p e s).tbuf = s.tbuf := rfl
@[simp] theorem overshoot_time (p : Params) (e : Env) (s : State) : (overshoot p e s).time = s.time + e.overshoot s.draws % (p.delaySlack + 1) := rfl
@[simp] theorem overshoot_trace (p : Params) (e : Env) (s : State) : (overshoot p e s).trace = s.trace := rfl
@[simp] theorem overshoot_draws (p : Params) (e : Env) (s : State) : (overshoot p e s).draws = s.draws + 1 := rfl
@[simp] theorem overshoot_rdata (p : Params) (e : Env) (s : State) : (overshoot p e s).rdata = s.rdata := rfl
@[simp] theorem overshoot_inbox (p : Params) (e : Env) (s : State) : (overshoot p e s).inbox = s.inbox := rfl

@[simp] theorem delay_arg0 (p : Params) (e : Env) (n : Nat) (s : State) : (delay p e n s).arg0 = s.arg0 := rfl
@[simp] theorem delay_arg1 (p : Params) (e : Env) (n : Nat) (s : State) : (delay p e n s).arg1 = s.arg1 := rfl
@[simp] theorem delay_arg2 (p : Params) (e : Env) (n : Nat) (s : State) : (delay p e n s).arg2 = s.arg2 := rfl
@[simp] theorem delay_result (p : Params) (e : Env) (n : Nat) (s : State) : (delay p e n s).result = s.result := rfl
@[simp] theorem delay_stOk (p : Params) (e : Env) (n : Nat) (s : State) : (delay p e n s).stOk = s.stOk := rfl
@[simp] theorem delay_stIll (p : Params) (e : Env) (n : Nat) (s : State) : (delay p e n s).stIll = s.stIll := rfl
@[simp] theorem delay_boundValid (p : Params) (e : Env) (n : Nat) (s : State) : (delay p e n s).boundValid = s.boundValid := rfl
@[simp] theorem delay_epochValid (p : Params) (e : Env) (n : Nat) (s : State) : (delay p e n s).epochValid = s.epochValid := rfl
@[simp] theorem delay_swData (p : Params) (e : Env) (n : Nat) (s : State) : (delay p e n s).swData = s.swData := rfl
@[simp] theorem delay_swTemp (p : Params) (e : Env) (n : Nat) (s : State) : (delay p e n s).swTemp = s.swTemp := rfl
@[simp] theorem delay_curX (p : Params) (e : Env) (n : Nat) (s : State) : (delay p e n s).curX = s.curX := rfl
@[simp] theorem delay_curY (p : Params) (e : Env) (n : Nat) (s : State) : (delay p e n s).curY = s.curY := rfl
@[simp] theorem delay_boundAddr (p : Params) (e : Env) (n : Nat) (s : State) : (delay p e n s).boundAddr = s.boundAddr := rfl
@[simp] theorem delay_fb (p : Params) (e : Env) (n : Nat) (s : State) : (delay p e n s).fb = s.fb := rfl
@[simp] theorem delay_epoch (p : Params) (e : Env) (n : Nat) (s : State) : (delay p e n s).epoch = e.epoch s.draws := rfl
@[simp] theorem delay_raw (p : Params) (e : Env) (n : Nat) (s : State) : (delay p e n s).raw = s.raw := rfl
@[simp] theorem delay_swOe (p : Params) (e : Env) (n : Nat) (s : State) : (delay p e n s).swOe = s.swOe := rfl
@[simp] theorem delay_trig (p : Params) (e : Env) (n : Nat) (s : State) : (delay p e n s).trig = s.trig := rfl
@[simp] theorem delay_seq (p : Params) (e : Env) (n : Nat) (s : State) : (delay p e n s).seq = s.seq := rfl
@[simp] theorem delay_tbuf (p : Params) (e : Env) (n : Nat) (s : State) : (delay p e n s).tbuf = s.tbuf := rfl
@[simp] theorem delay_time (p : Params) (e : Env) (n : Nat) (s : State) : (delay p e n s).time = s.time + n + e.overshoot s.draws % (p.delaySlack + 1) := rfl
@[simp] theorem delay_trace (p : Params) (e : Env) (n : Nat) (s : State) : (delay p e n s).trace = s.trace := rfl
@[simp] theorem delay_draws (p : Params) (e : Env) (n : Nat) (s : State) : (delay p e n s).draws = s.draws + 1 := rfl
@[simp] theorem delay_rdata (p : Params) (e : Env) (n : Nat) (s : State) : (delay p e n s).rdata = s.rdata := rfl
@[simp] theorem delay_inbox (p : Params) (e : Env) (n : Nat) (s : State) : (delay p e n s).inbox = s.inbox := rfl

@[simp] theorem latency_arg0 (p : Params) (e : Env) (s : State) : (latency p e s).arg0 = s.arg0 := rfl
@[simp] theorem latency_arg1 (p : Params) (e : Env) (s : State) : (latency p e s).arg1 = s.arg1 := rfl
@[simp] theorem latency_arg2 (p : Params) (e : Env) (s : State) : (latency p e s).arg2 = s.arg2 := rfl
@[simp] theorem latency_result (p : Params) (e : Env) (s : State) : (latency p e s).result = s.result := rfl
@[simp] theorem latency_stOk (p : Params) (e : Env) (s : State) : (latency p e s).stOk = s.stOk := rfl
@[simp] theorem latency_stIll (p : Params) (e : Env) (s : State) : (latency p e s).stIll = s.stIll := rfl
@[simp] theorem latency_boundValid (p : Params) (e : Env) (s : State) : (latency p e s).boundValid = s.boundValid := rfl
@[simp] theorem latency_epochValid (p : Params) (e : Env) (s : State) : (latency p e s).epochValid = s.epochValid := rfl
@[simp] theorem latency_swData (p : Params) (e : Env) (s : State) : (latency p e s).swData = s.swData := rfl
@[simp] theorem latency_swTemp (p : Params) (e : Env) (s : State) : (latency p e s).swTemp = s.swTemp := rfl
@[simp] theorem latency_curX (p : Params) (e : Env) (s : State) : (latency p e s).curX = s.curX := rfl
@[simp] theorem latency_curY (p : Params) (e : Env) (s : State) : (latency p e s).curY = s.curY := rfl
@[simp] theorem latency_boundAddr (p : Params) (e : Env) (s : State) : (latency p e s).boundAddr = s.boundAddr := rfl
@[simp] theorem latency_fb (p : Params) (e : Env) (s : State) : (latency p e s).fb = s.fb := rfl
@[simp] theorem latency_epoch (p : Params) (e : Env) (s : State) : (latency p e s).epoch = s.epoch := rfl
@[simp] theorem latency_raw (p : Params) (e : Env) (s : State) : (latency p e s).raw = s.raw := rfl
@[simp] theorem latency_swOe (p : Params) (e : Env) (s : State) : (latency p e s).swOe = s.swOe := rfl
@[simp] theorem latency_trig (p : Params) (e : Env) (s : State) : (latency p e s).trig = s.trig := rfl
@[simp] theorem latency_seq (p : Params) (e : Env) (s : State) : (latency p e s).seq = s.seq := rfl
@[simp] theorem latency_tbuf (p : Params) (e : Env) (s : State) : (latency p e s).tbuf = s.tbuf := rfl
@[simp] theorem latency_time (p : Params) (e : Env) (s : State) : (latency p e s).time = s.time + e.latency s.draws % (p.pollSlack + 1) := rfl
@[simp] theorem latency_trace (p : Params) (e : Env) (s : State) : (latency p e s).trace = s.trace := rfl
@[simp] theorem latency_draws (p : Params) (e : Env) (s : State) : (latency p e s).draws = s.draws + 1 := rfl
@[simp] theorem latency_rdata (p : Params) (e : Env) (s : State) : (latency p e s).rdata = s.rdata := rfl
@[simp] theorem latency_inbox (p : Params) (e : Env) (s : State) : (latency p e s).inbox = s.inbox := rfl

@[simp] theorem fbWrite_arg0 (i : Nat) (v : Byte) (s : State) : (fbWrite i v s).arg0 = s.arg0 := rfl
@[simp] theorem fbWrite_arg1 (i : Nat) (v : Byte) (s : State) : (fbWrite i v s).arg1 = s.arg1 := rfl
@[simp] theorem fbWrite_arg2 (i : Nat) (v : Byte) (s : State) : (fbWrite i v s).arg2 = s.arg2 := rfl
@[simp] theorem fbWrite_result (i : Nat) (v : Byte) (s : State) : (fbWrite i v s).result = s.result := rfl
@[simp] theorem fbWrite_stOk (i : Nat) (v : Byte) (s : State) : (fbWrite i v s).stOk = s.stOk := rfl
@[simp] theorem fbWrite_stIll (i : Nat) (v : Byte) (s : State) : (fbWrite i v s).stIll = s.stIll := rfl
@[simp] theorem fbWrite_boundValid (i : Nat) (v : Byte) (s : State) : (fbWrite i v s).boundValid = s.boundValid := rfl
@[simp] theorem fbWrite_epochValid (i : Nat) (v : Byte) (s : State) : (fbWrite i v s).epochValid = s.epochValid := rfl
@[simp] theorem fbWrite_swData (i : Nat) (v : Byte) (s : State) : (fbWrite i v s).swData = s.swData := rfl
@[simp] theorem fbWrite_swTemp (i : Nat) (v : Byte) (s : State) : (fbWrite i v s).swTemp = s.swTemp := rfl
@[simp] theorem fbWrite_curX (i : Nat) (v : Byte) (s : State) : (fbWrite i v s).curX = s.curX := rfl
@[simp] theorem fbWrite_curY (i : Nat) (v : Byte) (s : State) : (fbWrite i v s).curY = s.curY := rfl
@[simp] theorem fbWrite_boundAddr (i : Nat) (v : Byte) (s : State) : (fbWrite i v s).boundAddr = s.boundAddr := rfl
@[simp] theorem fbWrite_fb (i : Nat) (v : Byte) (s : State) : (fbWrite i v s).fb = Memory.write s.fb i v := rfl
@[simp] theorem fbWrite_epoch (i : Nat) (v : Byte) (s : State) : (fbWrite i v s).epoch = s.epoch := rfl
@[simp] theorem fbWrite_raw (i : Nat) (v : Byte) (s : State) : (fbWrite i v s).raw = s.raw := rfl
@[simp] theorem fbWrite_swOe (i : Nat) (v : Byte) (s : State) : (fbWrite i v s).swOe = s.swOe := rfl
@[simp] theorem fbWrite_trig (i : Nat) (v : Byte) (s : State) : (fbWrite i v s).trig = s.trig := rfl
@[simp] theorem fbWrite_seq (i : Nat) (v : Byte) (s : State) : (fbWrite i v s).seq = s.seq := rfl
@[simp] theorem fbWrite_tbuf (i : Nat) (v : Byte) (s : State) : (fbWrite i v s).tbuf = s.tbuf := rfl
@[simp] theorem fbWrite_time (i : Nat) (v : Byte) (s : State) : (fbWrite i v s).time = s.time := rfl
@[simp] theorem fbWrite_trace (i : Nat) (v : Byte) (s : State) : (fbWrite i v s).trace = s.trace := rfl
@[simp] theorem fbWrite_draws (i : Nat) (v : Byte) (s : State) : (fbWrite i v s).draws = s.draws := rfl
@[simp] theorem fbWrite_rdata (i : Nat) (v : Byte) (s : State) : (fbWrite i v s).rdata = s.rdata := rfl
@[simp] theorem fbWrite_inbox (i : Nat) (v : Byte) (s : State) : (fbWrite i v s).inbox = s.inbox := rfl

@[simp] theorem fbClear_arg0 (p : Params) (s : State) : (fbClear p s).arg0 = s.arg0 := rfl
@[simp] theorem fbClear_arg1 (p : Params) (s : State) : (fbClear p s).arg1 = s.arg1 := rfl
@[simp] theorem fbClear_arg2 (p : Params) (s : State) : (fbClear p s).arg2 = s.arg2 := rfl
@[simp] theorem fbClear_result (p : Params) (s : State) : (fbClear p s).result = s.result := rfl
@[simp] theorem fbClear_stOk (p : Params) (s : State) : (fbClear p s).stOk = s.stOk := rfl
@[simp] theorem fbClear_stIll (p : Params) (s : State) : (fbClear p s).stIll = s.stIll := rfl
@[simp] theorem fbClear_boundValid (p : Params) (s : State) : (fbClear p s).boundValid = s.boundValid := rfl
@[simp] theorem fbClear_epochValid (p : Params) (s : State) : (fbClear p s).epochValid = s.epochValid := rfl
@[simp] theorem fbClear_swData (p : Params) (s : State) : (fbClear p s).swData = s.swData := rfl
@[simp] theorem fbClear_swTemp (p : Params) (s : State) : (fbClear p s).swTemp = s.swTemp := rfl
@[simp] theorem fbClear_curX (p : Params) (s : State) : (fbClear p s).curX = s.curX := rfl
@[simp] theorem fbClear_curY (p : Params) (s : State) : (fbClear p s).curY = s.curY := rfl
@[simp] theorem fbClear_boundAddr (p : Params) (s : State) : (fbClear p s).boundAddr = s.boundAddr := rfl
@[simp] theorem fbClear_fb (p : Params) (s : State) : (fbClear p s).fb = Memory.clear (fbSize p) s.fb := rfl
@[simp] theorem fbClear_epoch (p : Params) (s : State) : (fbClear p s).epoch = s.epoch := rfl
@[simp] theorem fbClear_raw (p : Params) (s : State) : (fbClear p s).raw = s.raw := rfl
@[simp] theorem fbClear_swOe (p : Params) (s : State) : (fbClear p s).swOe = s.swOe := rfl
@[simp] theorem fbClear_trig (p : Params) (s : State) : (fbClear p s).trig = s.trig := rfl
@[simp] theorem fbClear_seq (p : Params) (s : State) : (fbClear p s).seq = s.seq := rfl
@[simp] theorem fbClear_tbuf (p : Params) (s : State) : (fbClear p s).tbuf = s.tbuf := rfl
@[simp] theorem fbClear_time (p : Params) (s : State) : (fbClear p s).time = s.time := rfl
@[simp] theorem fbClear_trace (p : Params) (s : State) : (fbClear p s).trace = s.trace := rfl
@[simp] theorem fbClear_draws (p : Params) (s : State) : (fbClear p s).draws = s.draws := rfl
@[simp] theorem fbClear_rdata (p : Params) (s : State) : (fbClear p s).rdata = s.rdata := rfl
@[simp] theorem fbClear_inbox (p : Params) (s : State) : (fbClear p s).inbox = s.inbox := rfl

@[simp] theorem hostRead_arg0 (x : BitVec 4) (s : State) : (hostRead x s).arg0 = s.arg0 := rfl
@[simp] theorem hostRead_arg1 (x : BitVec 4) (s : State) : (hostRead x s).arg1 = s.arg1 := rfl
@[simp] theorem hostRead_arg2 (x : BitVec 4) (s : State) : (hostRead x s).arg2 = s.arg2 := rfl
@[simp] theorem hostRead_result (x : BitVec 4) (s : State) : (hostRead x s).result = s.result := rfl
@[simp] theorem hostRead_stOk (x : BitVec 4) (s : State) : (hostRead x s).stOk = s.stOk := rfl
@[simp] theorem hostRead_stIll (x : BitVec 4) (s : State) : (hostRead x s).stIll = s.stIll := rfl
@[simp] theorem hostRead_boundValid (x : BitVec 4) (s : State) : (hostRead x s).boundValid = s.boundValid := rfl
@[simp] theorem hostRead_epochValid (x : BitVec 4) (s : State) : (hostRead x s).epochValid = s.epochValid := rfl
@[simp] theorem hostRead_swData (x : BitVec 4) (s : State) : (hostRead x s).swData = s.swData := rfl
@[simp] theorem hostRead_swTemp (x : BitVec 4) (s : State) : (hostRead x s).swTemp = s.swTemp := rfl
@[simp] theorem hostRead_curX (x : BitVec 4) (s : State) : (hostRead x s).curX = s.curX := rfl
@[simp] theorem hostRead_curY (x : BitVec 4) (s : State) : (hostRead x s).curY = s.curY := rfl
@[simp] theorem hostRead_boundAddr (x : BitVec 4) (s : State) : (hostRead x s).boundAddr = s.boundAddr := rfl
@[simp] theorem hostRead_fb (x : BitVec 4) (s : State) : (hostRead x s).fb = s.fb := rfl
@[simp] theorem hostRead_epoch (x : BitVec 4) (s : State) : (hostRead x s).epoch = s.epoch := rfl
@[simp] theorem hostRead_raw (x : BitVec 4) (s : State) : (hostRead x s).raw = s.raw := rfl
@[simp] theorem hostRead_swOe (x : BitVec 4) (s : State) : (hostRead x s).swOe = s.swOe := rfl
@[simp] theorem hostRead_trig (x : BitVec 4) (s : State) : (hostRead x s).trig = s.trig := rfl
@[simp] theorem hostRead_seq (x : BitVec 4) (s : State) : (hostRead x s).seq = s.seq := rfl
@[simp] theorem hostRead_tbuf (x : BitVec 4) (s : State) : (hostRead x s).tbuf = s.tbuf := rfl
@[simp] theorem hostRead_time (x : BitVec 4) (s : State) : (hostRead x s).time = s.time := rfl
@[simp] theorem hostRead_trace (x : BitVec 4) (s : State) : (hostRead x s).trace = s.trace := rfl
@[simp] theorem hostRead_draws (x : BitVec 4) (s : State) : (hostRead x s).draws = s.draws := rfl
@[simp] theorem hostRead_rdata (x : BitVec 4) (s : State) : (hostRead x s).rdata = regRead s x := rfl
@[simp] theorem hostRead_inbox (x : BitVec 4) (s : State) : (hostRead x s).inbox = s.inbox := rfl

@[simp] theorem busWrite_arg0 (e : Env) (a : Addr7) (d : List Byte) (s : State) : (busWrite e a d s).arg0 = s.arg0 := rfl
@[simp] theorem busWrite_arg1 (e : Env) (a : Addr7) (d : List Byte) (s : State) : (busWrite e a d s).arg1 = s.arg1 := rfl
@[simp] theorem busWrite_arg2 (e : Env) (a : Addr7) (d : List Byte) (s : State) : (busWrite e a d s).arg2 = s.arg2 := rfl
@[simp] theorem busWrite_result (e : Env) (a : Addr7) (d : List Byte) (s : State) : (busWrite e a d s).result = s.result := rfl
@[simp] theorem busWrite_stOk (e : Env) (a : Addr7) (d : List Byte) (s : State) : (busWrite e a d s).stOk = s.stOk := rfl
@[simp] theorem busWrite_stIll (e : Env) (a : Addr7) (d : List Byte) (s : State) : (busWrite e a d s).stIll = s.stIll := rfl
@[simp] theorem busWrite_boundValid (e : Env) (a : Addr7) (d : List Byte) (s : State) : (busWrite e a d s).boundValid = s.boundValid := rfl
@[simp] theorem busWrite_epochValid (e : Env) (a : Addr7) (d : List Byte) (s : State) : (busWrite e a d s).epochValid = s.epochValid := rfl
@[simp] theorem busWrite_swData (e : Env) (a : Addr7) (d : List Byte) (s : State) : (busWrite e a d s).swData = s.swData := rfl
@[simp] theorem busWrite_swTemp (e : Env) (a : Addr7) (d : List Byte) (s : State) : (busWrite e a d s).swTemp = s.swTemp := rfl
@[simp] theorem busWrite_curX (e : Env) (a : Addr7) (d : List Byte) (s : State) : (busWrite e a d s).curX = s.curX := rfl
@[simp] theorem busWrite_curY (e : Env) (a : Addr7) (d : List Byte) (s : State) : (busWrite e a d s).curY = s.curY := rfl
@[simp] theorem busWrite_boundAddr (e : Env) (a : Addr7) (d : List Byte) (s : State) : (busWrite e a d s).boundAddr = s.boundAddr := rfl
@[simp] theorem busWrite_fb (e : Env) (a : Addr7) (d : List Byte) (s : State) : (busWrite e a d s).fb = s.fb := rfl
@[simp] theorem busWrite_epoch (e : Env) (a : Addr7) (d : List Byte) (s : State) : (busWrite e a d s).epoch = s.epoch := rfl
@[simp] theorem busWrite_raw (e : Env) (a : Addr7) (d : List Byte) (s : State) : (busWrite e a d s).raw = s.raw := rfl
@[simp] theorem busWrite_swOe (e : Env) (a : Addr7) (d : List Byte) (s : State) : (busWrite e a d s).swOe = s.swOe := rfl
@[simp] theorem busWrite_trig (e : Env) (a : Addr7) (d : List Byte) (s : State) : (busWrite e a d s).trig = s.trig := rfl
@[simp] theorem busWrite_seq (e : Env) (a : Addr7) (d : List Byte) (s : State) : (busWrite e a d s).seq = s.seq := rfl
@[simp] theorem busWrite_tbuf (e : Env) (a : Addr7) (d : List Byte) (s : State) : (busWrite e a d s).tbuf = s.tbuf := rfl
@[simp] theorem busWrite_time (e : Env) (a : Addr7) (d : List Byte) (s : State) : (busWrite e a d s).time = s.time + e.duration s.draws := rfl
@[simp] theorem busWrite_trace (e : Env) (a : Addr7) (d : List Byte) (s : State) : (busWrite e a d s).trace = s.trace ++ [.write a d] := rfl
@[simp] theorem busWrite_draws (e : Env) (a : Addr7) (d : List Byte) (s : State) : (busWrite e a d s).draws = s.draws + 1 := rfl
@[simp] theorem busWrite_rdata (e : Env) (a : Addr7) (d : List Byte) (s : State) : (busWrite e a d s).rdata = s.rdata := rfl
@[simp] theorem busWrite_inbox (e : Env) (a : Addr7) (d : List Byte) (s : State) : (busWrite e a d s).inbox = s.inbox := rfl

@[simp] theorem sendCmd_arg0 (p : Params) (e : Env) (c : Byte) (s : State) : (sendCmd p e c s).arg0 = s.arg0 := rfl
@[simp] theorem sendCmd_arg1 (p : Params) (e : Env) (c : Byte) (s : State) : (sendCmd p e c s).arg1 = s.arg1 := rfl
@[simp] theorem sendCmd_arg2 (p : Params) (e : Env) (c : Byte) (s : State) : (sendCmd p e c s).arg2 = s.arg2 := rfl
@[simp] theorem sendCmd_result (p : Params) (e : Env) (c : Byte) (s : State) : (sendCmd p e c s).result = s.result := rfl
@[simp] theorem sendCmd_stOk (p : Params) (e : Env) (c : Byte) (s : State) : (sendCmd p e c s).stOk = s.stOk := rfl
@[simp] theorem sendCmd_stIll (p : Params) (e : Env) (c : Byte) (s : State) : (sendCmd p e c s).stIll = s.stIll := rfl
@[simp] theorem sendCmd_boundValid (p : Params) (e : Env) (c : Byte) (s : State) : (sendCmd p e c s).boundValid = s.boundValid := rfl
@[simp] theorem sendCmd_epochValid (p : Params) (e : Env) (c : Byte) (s : State) : (sendCmd p e c s).epochValid = s.epochValid := rfl
@[simp] theorem sendCmd_swData (p : Params) (e : Env) (c : Byte) (s : State) : (sendCmd p e c s).swData = s.swData := rfl
@[simp] theorem sendCmd_swTemp (p : Params) (e : Env) (c : Byte) (s : State) : (sendCmd p e c s).swTemp = s.swTemp := rfl
@[simp] theorem sendCmd_curX (p : Params) (e : Env) (c : Byte) (s : State) : (sendCmd p e c s).curX = s.curX := rfl
@[simp] theorem sendCmd_curY (p : Params) (e : Env) (c : Byte) (s : State) : (sendCmd p e c s).curY = s.curY := rfl
@[simp] theorem sendCmd_boundAddr (p : Params) (e : Env) (c : Byte) (s : State) : (sendCmd p e c s).boundAddr = s.boundAddr := rfl
@[simp] theorem sendCmd_fb (p : Params) (e : Env) (c : Byte) (s : State) : (sendCmd p e c s).fb = s.fb := rfl
@[simp] theorem sendCmd_epoch (p : Params) (e : Env) (c : Byte) (s : State) : (sendCmd p e c s).epoch = s.epoch := rfl
@[simp] theorem sendCmd_raw (p : Params) (e : Env) (c : Byte) (s : State) : (sendCmd p e c s).raw = s.raw := rfl
@[simp] theorem sendCmd_swOe (p : Params) (e : Env) (c : Byte) (s : State) : (sendCmd p e c s).swOe = s.swOe := rfl
@[simp] theorem sendCmd_trig (p : Params) (e : Env) (c : Byte) (s : State) : (sendCmd p e c s).trig = s.trig := rfl
@[simp] theorem sendCmd_seq (p : Params) (e : Env) (c : Byte) (s : State) : (sendCmd p e c s).seq = s.seq := rfl
@[simp] theorem sendCmd_tbuf (p : Params) (e : Env) (c : Byte) (s : State) : (sendCmd p e c s).tbuf = s.tbuf := rfl
@[simp] theorem sendCmd_time (p : Params) (e : Env) (c : Byte) (s : State) : (sendCmd p e c s).time = s.time + e.duration s.draws := rfl
@[simp] theorem sendCmd_trace (p : Params) (e : Env) (c : Byte) (s : State) : (sendCmd p e c s).trace = s.trace ++ [.write s.boundAddr [p.ctrlCmd, c]] := rfl
@[simp] theorem sendCmd_draws (p : Params) (e : Env) (c : Byte) (s : State) : (sendCmd p e c s).draws = s.draws + 1 := rfl
@[simp] theorem sendCmd_rdata (p : Params) (e : Env) (c : Byte) (s : State) : (sendCmd p e c s).rdata = s.rdata := rfl
@[simp] theorem sendCmd_inbox (p : Params) (e : Env) (c : Byte) (s : State) : (sendCmd p e c s).inbox = s.inbox := rfl

@[simp] theorem sendData_arg0 (p : Params) (e : Env) (a : Addr7) (d : List Byte) (s : State) : (sendData p e a d s).arg0 = s.arg0 := rfl
@[simp] theorem sendData_arg1 (p : Params) (e : Env) (a : Addr7) (d : List Byte) (s : State) : (sendData p e a d s).arg1 = s.arg1 := rfl
@[simp] theorem sendData_arg2 (p : Params) (e : Env) (a : Addr7) (d : List Byte) (s : State) : (sendData p e a d s).arg2 = s.arg2 := rfl
@[simp] theorem sendData_result (p : Params) (e : Env) (a : Addr7) (d : List Byte) (s : State) : (sendData p e a d s).result = s.result := rfl
@[simp] theorem sendData_stOk (p : Params) (e : Env) (a : Addr7) (d : List Byte) (s : State) : (sendData p e a d s).stOk = s.stOk := rfl
@[simp] theorem sendData_stIll (p : Params) (e : Env) (a : Addr7) (d : List Byte) (s : State) : (sendData p e a d s).stIll = s.stIll := rfl
@[simp] theorem sendData_boundValid (p : Params) (e : Env) (a : Addr7) (d : List Byte) (s : State) : (sendData p e a d s).boundValid = s.boundValid := rfl
@[simp] theorem sendData_epochValid (p : Params) (e : Env) (a : Addr7) (d : List Byte) (s : State) : (sendData p e a d s).epochValid = s.epochValid := rfl
@[simp] theorem sendData_swData (p : Params) (e : Env) (a : Addr7) (d : List Byte) (s : State) : (sendData p e a d s).swData = s.swData := rfl
@[simp] theorem sendData_swTemp (p : Params) (e : Env) (a : Addr7) (d : List Byte) (s : State) : (sendData p e a d s).swTemp = s.swTemp := rfl
@[simp] theorem sendData_curX (p : Params) (e : Env) (a : Addr7) (d : List Byte) (s : State) : (sendData p e a d s).curX = s.curX := rfl
@[simp] theorem sendData_curY (p : Params) (e : Env) (a : Addr7) (d : List Byte) (s : State) : (sendData p e a d s).curY = s.curY := rfl
@[simp] theorem sendData_boundAddr (p : Params) (e : Env) (a : Addr7) (d : List Byte) (s : State) : (sendData p e a d s).boundAddr = s.boundAddr := rfl
@[simp] theorem sendData_fb (p : Params) (e : Env) (a : Addr7) (d : List Byte) (s : State) : (sendData p e a d s).fb = s.fb := rfl
@[simp] theorem sendData_epoch (p : Params) (e : Env) (a : Addr7) (d : List Byte) (s : State) : (sendData p e a d s).epoch = s.epoch := rfl
@[simp] theorem sendData_raw (p : Params) (e : Env) (a : Addr7) (d : List Byte) (s : State) : (sendData p e a d s).raw = s.raw := rfl
@[simp] theorem sendData_swOe (p : Params) (e : Env) (a : Addr7) (d : List Byte) (s : State) : (sendData p e a d s).swOe = s.swOe := rfl
@[simp] theorem sendData_trig (p : Params) (e : Env) (a : Addr7) (d : List Byte) (s : State) : (sendData p e a d s).trig = s.trig := rfl
@[simp] theorem sendData_seq (p : Params) (e : Env) (a : Addr7) (d : List Byte) (s : State) : (sendData p e a d s).seq = s.seq := rfl
@[simp] theorem sendData_tbuf (p : Params) (e : Env) (a : Addr7) (d : List Byte) (s : State) : (sendData p e a d s).tbuf = p.ctrlData :: d := rfl
@[simp] theorem sendData_time (p : Params) (e : Env) (a : Addr7) (d : List Byte) (s : State) : (sendData p e a d s).time = s.time + e.duration s.draws := rfl
@[simp] theorem sendData_trace (p : Params) (e : Env) (a : Addr7) (d : List Byte) (s : State) : (sendData p e a d s).trace = s.trace ++ [.write a (p.ctrlData :: d)] := rfl
@[simp] theorem sendData_draws (p : Params) (e : Env) (a : Addr7) (d : List Byte) (s : State) : (sendData p e a d s).draws = s.draws + 1 := rfl
@[simp] theorem sendData_rdata (p : Params) (e : Env) (a : Addr7) (d : List Byte) (s : State) : (sendData p e a d s).rdata = s.rdata := rfl
@[simp] theorem sendData_inbox (p : Params) (e : Env) (a : Addr7) (d : List Byte) (s : State) : (sendData p e a d s).inbox = s.inbox := rfl

@[simp] theorem commitReading_arg0 (s : State) : (commitReading s).arg0 = s.arg0 := rfl
@[simp] theorem commitReading_arg1 (s : State) : (commitReading s).arg1 = s.arg1 := rfl
@[simp] theorem commitReading_arg2 (s : State) : (commitReading s).arg2 = s.arg2 := rfl
@[simp] theorem commitReading_result (s : State) : (commitReading s).result = s.result := rfl
@[simp] theorem commitReading_stOk (s : State) : (commitReading s).stOk = s.stOk := rfl
@[simp] theorem commitReading_stIll (s : State) : (commitReading s).stIll = s.stIll := rfl
@[simp] theorem commitReading_boundValid (s : State) : (commitReading s).boundValid = s.boundValid := rfl
@[simp] theorem commitReading_epochValid (s : State) : (commitReading s).epochValid = s.epochValid := rfl
@[simp] theorem commitReading_swData (s : State) : (commitReading s).swData = s.raw := rfl
@[simp] theorem commitReading_swTemp (s : State) : (commitReading s).swTemp = s.raw.tempInt := rfl
@[simp] theorem commitReading_curX (s : State) : (commitReading s).curX = s.curX := rfl
@[simp] theorem commitReading_curY (s : State) : (commitReading s).curY = s.curY := rfl
@[simp] theorem commitReading_boundAddr (s : State) : (commitReading s).boundAddr = s.boundAddr := rfl
@[simp] theorem commitReading_fb (s : State) : (commitReading s).fb = s.fb := rfl
@[simp] theorem commitReading_epoch (s : State) : (commitReading s).epoch = s.epoch := rfl
@[simp] theorem commitReading_raw (s : State) : (commitReading s).raw = s.raw := rfl
@[simp] theorem commitReading_swOe (s : State) : (commitReading s).swOe = s.swOe := rfl
@[simp] theorem commitReading_trig (s : State) : (commitReading s).trig = s.trig := rfl
@[simp] theorem commitReading_seq (s : State) : (commitReading s).seq = s.seq := rfl
@[simp] theorem commitReading_tbuf (s : State) : (commitReading s).tbuf = s.tbuf := rfl
@[simp] theorem commitReading_time (s : State) : (commitReading s).time = s.time := rfl
@[simp] theorem commitReading_trace (s : State) : (commitReading s).trace = s.trace := rfl
@[simp] theorem commitReading_draws (s : State) : (commitReading s).draws = s.draws := rfl
@[simp] theorem commitReading_rdata (s : State) : (commitReading s).rdata = s.rdata := rfl
@[simp] theorem commitReading_inbox (s : State) : (commitReading s).inbox = s.inbox := rfl

@[simp] theorem advanceCursor_arg0 (p : Params) (s : State) : (advanceCursor p s).arg0 = s.arg0 := rfl
@[simp] theorem advanceCursor_arg1 (p : Params) (s : State) : (advanceCursor p s).arg1 = s.arg1 := rfl
@[simp] theorem advanceCursor_arg2 (p : Params) (s : State) : (advanceCursor p s).arg2 = s.arg2 := rfl
@[simp] theorem advanceCursor_result (p : Params) (s : State) : (advanceCursor p s).result = s.result := rfl
@[simp] theorem advanceCursor_stOk (p : Params) (s : State) : (advanceCursor p s).stOk = s.stOk := rfl
@[simp] theorem advanceCursor_stIll (p : Params) (s : State) : (advanceCursor p s).stIll = s.stIll := rfl
@[simp] theorem advanceCursor_boundValid (p : Params) (s : State) : (advanceCursor p s).boundValid = s.boundValid := rfl
@[simp] theorem advanceCursor_epochValid (p : Params) (s : State) : (advanceCursor p s).epochValid = s.epochValid := rfl
@[simp] theorem advanceCursor_swData (p : Params) (s : State) : (advanceCursor p s).swData = s.swData := rfl
@[simp] theorem advanceCursor_swTemp (p : Params) (s : State) : (advanceCursor p s).swTemp = s.swTemp := rfl
@[simp] theorem advanceCursor_curX (p : Params) (s : State) : (advanceCursor p s).curX = s.curX + BitVec.ofNat 16 p.fontW := rfl
@[simp] theorem advanceCursor_curY (p : Params) (s : State) : (advanceCursor p s).curY = s.curY := rfl
@[simp] theorem advanceCursor_boundAddr (p : Params) (s : State) : (advanceCursor p s).boundAddr = s.boundAddr := rfl
@[simp] theorem advanceCursor_fb (p : Params) (s : State) : (advanceCursor p s).fb = s.fb := rfl
@[simp] theorem advanceCursor_epoch (p : Params) (s : State) : (advanceCursor p s).epoch = s.epoch := rfl
@[simp] theorem advanceCursor_raw (p : Params) (s : State) : (advanceCursor p s).raw = s.raw := rfl
@[simp] theorem advanceCursor_swOe (p : Params) (s : State) : (advanceCursor p s).swOe = s.swOe := rfl
@[simp] theorem advanceCursor_trig (p : Params) (s : State) : (advanceCursor p s).trig = s.trig := rfl
@[simp] theorem advanceCursor_seq (p : Params) (s : State) : (advanceCursor p s).seq = s.seq := rfl
@[simp] theorem advanceCursor_tbuf (p : Params) (s : State) : (advanceCursor p s).tbuf = s.tbuf := rfl
@[simp] theorem advanceCursor_time (p : Params) (s : State) : (advanceCursor p s).time = s.time := rfl
@[simp] theorem advanceCursor_trace (p : Params) (s : State) : (advanceCursor p s).trace = s.trace := rfl
@[simp] theorem advanceCursor_draws (p : Params) (s : State) : (advanceCursor p s).draws = s.draws := rfl
@[simp] theorem advanceCursor_rdata (p : Params) (s : State) : (advanceCursor p s).rdata = s.rdata := rfl
@[simp] theorem advanceCursor_inbox (p : Params) (s : State) : (advanceCursor p s).inbox = s.inbox := rfl

@[simp] theorem waitTick_arg0 (s : State) : (waitTick s).arg0 = s.arg0 := rfl
@[simp] theorem waitTick_arg1 (s : State) : (waitTick s).arg1 = s.arg1 := rfl
@[simp] theorem waitTick_arg2 (s : State) : (waitTick s).arg2 = s.arg2 := rfl
@[simp] theorem waitTick_result (s : State) : (waitTick s).result = s.result := rfl
@[simp] theorem waitTick_stOk (s : State) : (waitTick s).stOk = s.stOk := rfl
@[simp] theorem waitTick_stIll (s : State) : (waitTick s).stIll = s.stIll := rfl
@[simp] theorem waitTick_boundValid (s : State) : (waitTick s).boundValid = s.boundValid := rfl
@[simp] theorem waitTick_epochValid (s : State) : (waitTick s).epochValid = s.epochValid := rfl
@[simp] theorem waitTick_swData (s : State) : (waitTick s).swData = s.swData := rfl
@[simp] theorem waitTick_swTemp (s : State) : (waitTick s).swTemp = s.swTemp := rfl
@[simp] theorem waitTick_curX (s : State) : (waitTick s).curX = s.curX := rfl
@[simp] theorem waitTick_curY (s : State) : (waitTick s).curY = s.curY := rfl
@[simp] theorem waitTick_boundAddr (s : State) : (waitTick s).boundAddr = s.boundAddr := rfl
@[simp] theorem waitTick_fb (s : State) : (waitTick s).fb = s.fb := rfl
@[simp] theorem waitTick_epoch (s : State) : (waitTick s).epoch = s.epoch := rfl
@[simp] theorem waitTick_raw (s : State) : (waitTick s).raw = s.raw := rfl
@[simp] theorem waitTick_swOe (s : State) : (waitTick s).swOe = s.swOe := rfl
@[simp] theorem waitTick_trig (s : State) : (waitTick s).trig = s.trig := rfl
@[simp] theorem waitTick_seq (s : State) : (waitTick s).seq = s.seq := rfl
@[simp] theorem waitTick_tbuf (s : State) : (waitTick s).tbuf = s.tbuf := rfl
@[simp] theorem waitTick_time (s : State) : (waitTick s).time = s.time + 1 := rfl
@[simp] theorem waitTick_trace (s : State) : (waitTick s).trace = s.trace := rfl
@[simp] theorem waitTick_draws (s : State) : (waitTick s).draws = s.draws := rfl
@[simp] theorem waitTick_rdata (s : State) : (waitTick s).rdata = s.rdata := rfl
@[simp] theorem waitTick_inbox (s : State) : (waitTick s).inbox = s.inbox := rfl

@[simp] theorem restartIn_arg0 (ph : Seq) (s : State) : (restartIn ph s).arg0 = s.arg0 := rfl
@[simp] theorem restartIn_arg1 (ph : Seq) (s : State) : (restartIn ph s).arg1 = s.arg1 := rfl
@[simp] theorem restartIn_arg2 (ph : Seq) (s : State) : (restartIn ph s).arg2 = s.arg2 := rfl
@[simp] theorem restartIn_result (ph : Seq) (s : State) : (restartIn ph s).result = s.result := rfl
@[simp] theorem restartIn_stOk (ph : Seq) (s : State) : (restartIn ph s).stOk = s.stOk := rfl
@[simp] theorem restartIn_stIll (ph : Seq) (s : State) : (restartIn ph s).stIll = s.stIll := rfl
@[simp] theorem restartIn_boundValid (ph : Seq) (s : State) : (restartIn ph s).boundValid = s.boundValid := rfl
@[simp] theorem restartIn_epochValid (ph : Seq) (s : State) : (restartIn ph s).epochValid = s.epochValid := rfl
@[simp] theorem restartIn_swData (ph : Seq) (s : State) : (restartIn ph s).swData = s.swData := rfl
@[simp] theorem restartIn_swTemp (ph : Seq) (s : State) : (restartIn ph s).swTemp = s.swTemp := rfl
@[simp] theorem restartIn_curX (ph : Seq) (s : State) : (restartIn ph s).curX = s.curX := rfl
@[simp] theorem restartIn_curY (ph : Seq) (s : State) : (restartIn ph s).curY = s.curY := rfl
@[simp] theorem restartIn_boundAddr (ph : Seq) (s : State) : (restartIn ph s).boundAddr = s.boundAddr := rfl
@[simp] theorem restartIn_fb (ph : Seq) (s : State) : (restartIn ph s).fb = s.fb := rfl
@[simp] theorem restartIn_epoch (ph : Seq) (s : State) : (restartIn ph s).epoch = s.time := rfl
@[simp] theorem restartIn_raw (ph : Seq) (s : State) : (restartIn ph s).raw = s.raw := rfl
@[simp] theorem restartIn_swOe (ph : Seq) (s : State) : (restartIn ph s).swOe = s.swOe := rfl
@[simp] theorem restartIn_trig (ph : Seq) (s : State) : (restartIn ph s).trig = s.trig := rfl
@[simp] theorem restartIn_seq (ph : Seq) (s : State) : (restartIn ph s).seq = ph := rfl
@[simp] theorem restartIn_tbuf (ph : Seq) (s : State) : (restartIn ph s).tbuf = s.tbuf := rfl
@[simp] theorem restartIn_time (ph : Seq) (s : State) : (restartIn ph s).time = s.time := rfl
@[simp] theorem restartIn_trace (ph : Seq) (s : State) : (restartIn ph s).trace = s.trace := rfl
@[simp] theorem restartIn_draws (ph : Seq) (s : State) : (restartIn ph s).draws = s.draws := rfl
@[simp] theorem restartIn_rdata (ph : Seq) (s : State) : (restartIn ph s).rdata = s.rdata := rfl
@[simp] theorem restartIn_inbox (ph : Seq) (s : State) : (restartIn ph s).inbox = s.inbox := rfl

@[simp] theorem swsBegin_arg0 (s : State) : (swsBegin s).arg0 = s.arg0 := rfl
@[simp] theorem swsBegin_arg1 (s : State) : (swsBegin s).arg1 = s.arg1 := rfl
@[simp] theorem swsBegin_arg2 (s : State) : (swsBegin s).arg2 = s.arg2 := rfl
@[simp] theorem swsBegin_result (s : State) : (swsBegin s).result = s.result := rfl
@[simp] theorem swsBegin_stOk (s : State) : (swsBegin s).stOk = s.stOk := rfl
@[simp] theorem swsBegin_stIll (s : State) : (swsBegin s).stIll = s.stIll := rfl
@[simp] theorem swsBegin_boundValid (s : State) : (swsBegin s).boundValid = s.boundValid := rfl
@[simp] theorem swsBegin_epochValid (s : State) : (swsBegin s).epochValid = false := rfl
@[simp] theorem swsBegin_swData (s : State) : (swsBegin s).swData = s.swData := rfl
@[simp] theorem swsBegin_swTemp (s : State) : (swsBegin s).swTemp = s.swTemp := rfl
@[simp] theorem swsBegin_curX (s : State) : (swsBegin s).curX = s.curX := rfl
@[simp] theorem swsBegin_curY (s : State) : (swsBegin s).curY = s.curY := rfl
@[simp] theorem swsBegin_boundAddr (s : State) : (swsBegin s).boundAddr = s.boundAddr := rfl
@[simp] theorem swsBegin_fb (s : State) : (swsBegin s).fb = s.fb := rfl
@[simp] theorem swsBegin_epoch (s : State) : (swsBegin s).epoch = s.time := rfl
@[simp] theorem swsBegin_raw (s : State) : (swsBegin s).raw = s.raw := rfl
@[simp] theorem swsBegin_swOe (s : State) : (swsBegin s).swOe = true := rfl
@[simp] theorem swsBegin_trig (s : State) : (swsBegin s).trig = s.trig := rfl
@[simp] theorem swsBegin_seq (s : State) : (swsBegin s).seq = .swStartLow := rfl
@[simp] theorem swsBegin_tbuf (s : State) : (swsBegin s).tbuf = s.tbuf := rfl
@[simp] theorem swsBegin_time (s : State) : (swsBegin s).time = s.time := rfl
@[simp] theorem swsBegin_trace (s : State) : (swsBegin s).trace = s.trace := rfl
@[simp] theorem swsBegin_draws (s : State) : (swsBegin s).draws = s.draws := rfl
@[simp] theorem swsBegin_rdata (s : State) : (swsBegin s).rdata = s.rdata := rfl
@[simp] theorem swsBegin_inbox (s : State) : (swsBegin s).inbox = s.inbox := rfl

end Sys2Proof.Machine
end

