-- ==== Sys2Proof/Laws/Memory.lean ====
section
/-! SUPPORT. The laws of the framebuffer memory: a read after a write, a write elsewhere, a clear; every operation keeps the
canonical form and the range of addresses. -/

namespace Sys2Proof.Machine

@[simp] theorem Memory.read_nil (i : Nat) : Memory.read [] i = 0 := rfl

theorem Memory.read_cons (a : Nat) (b : Byte) (m : List Host.Cell) (i : Nat) :
    Memory.read ((a, b) :: m) i = if i = a then b else Memory.read m i := rfl

theorem Memory.read_filter_of_keep (f : Nat → Bool) (m : List Host.Cell) (i : Nat) (h : f i = true) :
    Memory.read (m.filter fun c => f c.1) i = Memory.read m i := by
  induction m with
  | nil => rfl
  | cons c m ih =>
    obtain ⟨a, b⟩ := c
    by_cases hi : i = a
    · subst hi; simp [h, Memory.read_cons]
    · by_cases ha : f a = true
      · simp [ha, Memory.read_cons, hi, ih]
      · simp [ha, Memory.read_cons, hi, ih]

theorem Memory.read_filter_of_drop (f : Nat → Bool) (m : List Host.Cell) (i : Nat) (h : f i = false) :
    Memory.read (m.filter fun c => f c.1) i = 0 := by
  induction m with
  | nil => rfl
  | cons c m ih =>
    obtain ⟨a, b⟩ := c
    by_cases ha : f a = true
    · have hi : i ≠ a := by rintro rfl; simp [h] at ha
      simp [ha, Memory.read_cons, hi, ih]
    · simp [ha, ih]

theorem Memory.read_erase (m : List Host.Cell) (i j : Nat) :
    Memory.read (Memory.erase i m) j = if j = i then 0 else Memory.read m j := by
  unfold Memory.erase
  by_cases h : j = i
  · rw [Memory.read_filter_of_drop (fun a => decide (a ≠ i)) m j (by simp [h])]; simp [h]
  · rw [Memory.read_filter_of_keep (fun a => decide (a ≠ i)) m j (by simp [h])]; simp [h]

theorem Memory.read_insert (m : List Host.Cell) (i j : Nat) (v : Byte) (hm : ∀ c ∈ m, c.1 ≠ i) :
    Memory.read (Memory.insert i v m) j = if j = i then v else Memory.read m j := by
  induction m with
  | nil => simp [Memory.insert, Memory.read_cons]
  | cons c m ih =>
    obtain ⟨a, b⟩ := c
    have hai : a ≠ i := hm (a, b) (by simp)
    have ih' := ih (fun c hc => hm c (by simp [hc]))
    unfold Memory.insert
    split
    · simp [Memory.read_cons]
    · by_cases hj : j = i
      · subst hj; simp [Memory.read_cons, ih', Ne.symm hai]
      · by_cases hja : j = a
        · subst hja; simp [Memory.read_cons, hai]
        · simp [Memory.read_cons, ih', hj, hja]

/-- A read after a write: the byte written, every other byte as before. -/
theorem Memory.read_write (m : List Host.Cell) (i j : Nat) (v : Byte) :
    Memory.read (Memory.write m i v) j = if j = i then v else Memory.read m j := by
  unfold Memory.write
  split
  · next h => rw [Memory.read_erase]; simp [h]
  · rw [Memory.read_insert _ _ _ _ (by intro c hc; simp [Memory.erase] at hc; exact hc.2),
      Memory.read_erase]
    by_cases hj : j = i <;> simp [hj]

/-- A read after a clear: zero below the bound, as before from it on. -/
theorem Memory.read_clear (m : List Host.Cell) (n i : Nat) :
    Memory.read (Memory.clear n m) i = if i < n then 0 else Memory.read m i := by
  unfold Memory.clear
  by_cases h : i < n
  · rw [Memory.read_filter_of_drop (fun a => decide (n ≤ a)) m i (by simp [h])]; simp [h]
  · rw [Memory.read_filter_of_keep (fun a => decide (n ≤ a)) m i (by simpa using h)]; simp [h]

theorem Memory.wfFrom_mono {lo lo' : Nat} (h : lo' ≤ lo) (m : List Host.Cell) (hm : Memory.wfFrom lo m = true) :
    Memory.wfFrom lo' m = true := by
  cases m with
  | nil => rfl
  | cons c m => simp only [Memory.wfFrom, Bool.and_eq_true, decide_eq_true_eq] at *; exact ⟨⟨by omega, hm.1.2⟩, hm.2⟩

theorem Memory.wfFrom_filter (f : Host.Cell → Bool) (m : List Host.Cell) :
    ∀ lo, Memory.wfFrom lo m = true → Memory.wfFrom lo (m.filter f) = true := by
  induction m with
  | nil => intro lo h; exact h
  | cons c m ih =>
    intro lo h
    simp only [Memory.wfFrom, Bool.and_eq_true, decide_eq_true_eq] at h
    by_cases hc : f c = true
    · simp only [List.filter_cons, hc, if_true, Memory.wfFrom, Bool.and_eq_true, decide_eq_true_eq]
      exact ⟨h.1, ih _ h.2⟩
    · simp only [List.filter_cons, hc]
      exact ih _ (Memory.wfFrom_mono (by omega) m h.2)

theorem Memory.wfFrom_insert (i : Nat) (v : Byte) (hv : v ≠ 0) (m : List Host.Cell) :
    ∀ lo, lo ≤ i → (∀ c ∈ m, c.1 ≠ i) → Memory.wfFrom lo m = true → Memory.wfFrom lo (Memory.insert i v m) = true := by
  induction m with
  | nil => intro lo hlo _ _; simpa [Memory.insert, Memory.wfFrom, hlo] using hv
  | cons c m ih =>
    obtain ⟨a, b⟩ := c
    intro lo hlo hm h
    simp only [Memory.wfFrom, Bool.and_eq_true, decide_eq_true_eq] at h
    have hai : a ≠ i := hm (a, b) (by simp)
    unfold Memory.insert
    split
    · next hlt =>
      simp only [Memory.wfFrom, Bool.and_eq_true, decide_eq_true_eq]
      exact ⟨⟨hlo, by simpa using hv⟩, ⟨by omega, h.1.2⟩, h.2⟩
    · next hlt =>
      simp only [Memory.wfFrom, Bool.and_eq_true, decide_eq_true_eq]
      exact ⟨h.1, ih _ (by omega) (fun c hc => hm c (by simp [hc])) h.2⟩

/-- A write keeps the canonical form. -/
theorem Memory.wf_write (m : List Host.Cell) (i : Nat) (v : Byte) (h : Memory.wf m = true) :
    Memory.wf (Memory.write m i v) = true := by
  unfold Memory.wf Memory.write at *
  split
  · exact Memory.wfFrom_filter _ _ _ h
  · next hv =>
    exact Memory.wfFrom_insert i v hv _ 0 (by omega) (by intro c hc; simp [Memory.erase] at hc; exact hc.2)
      (Memory.wfFrom_filter _ _ _ h)

/-- A clear keeps the canonical form. -/
theorem Memory.wf_clear (m : List Host.Cell) (n : Nat) (h : Memory.wf m = true) :
    Memory.wf (Memory.clear n m) = true :=
  Memory.wfFrom_filter _ _ _ h

/-- The memory of the reset state is in canonical form. -/
theorem Memory.wf_reset : Memory.wf State.reset.fb = true := rfl

theorem Memory.mem_insert (i : Nat) (v : Byte) (m : List Host.Cell) (c : Host.Cell) :
    c ∈ Memory.insert i v m ↔ c = (i, v) ∨ c ∈ m := by
  induction m with
  | nil => simp [Memory.insert]
  | cons d m ih =>
    obtain ⟨a, b⟩ := d
    unfold Memory.insert
    split
    · simp
    · simp only [List.mem_cons, ih]; tauto

/-- A write below the bound keeps every listed address below it. -/
theorem Memory.within_write (n : Nat) (m : List Host.Cell) (i : Nat) (v : Byte) (hi : i < n)
    (h : Memory.within n m = true) : Memory.within n (Memory.write m i v) = true := by
  simp only [Memory.within, List.all_eq_true, decide_eq_true_eq] at *
  intro c hc
  unfold Memory.write at hc
  split at hc
  · exact h c (List.mem_of_mem_filter hc)
  · rcases (Memory.mem_insert i v _ c).1 hc with rfl | hc
    · exact hi
    · exact h c (List.mem_of_mem_filter hc)

/-- A clear keeps every listed address below the bound. -/
theorem Memory.within_clear (n k : Nat) (m : List Host.Cell) (h : Memory.within n m = true) :
    Memory.within n (Memory.clear k m) = true := by
  simp only [Memory.within, List.all_eq_true, decide_eq_true_eq] at *
  exact fun c hc => h c (List.mem_of_mem_filter hc)

end Sys2Proof.Machine
end

