-- ==== Sys2Proof/Laws/Wait.lean ====
section
/-! SUPPORT. The counter and the waits: what the polling loop answers (40_timer.md R127), and that a wait touches only the
time, the epoch and the draw index. -/

namespace Sys2Proof.Machine

/-- The counter is the difference of the ticks, modulo the wrap (R123). -/
theorem counterAt_eq (p : Params) (epoch t : Nat) (hw : 0 < p.tmrWrap) (h : epoch ≤ t) :
    counterAt p epoch t = (t - epoch) % p.tmrWrap := by
  unfold counterAt
  have hd := Nat.mod_add_div epoch p.tmrWrap
  have hlt := Nat.mod_lt epoch hw
  have e1 : t + (p.tmrWrap - epoch % p.tmrWrap) = (t - epoch) + p.tmrWrap * (epoch / p.tmrWrap + 1) := by
    rw [Nat.mul_add, Nat.mul_one]; omega
  rw [e1, Nat.add_mul_mod_self_left]

/-- Below the wrap the counter is the true number of ticks (R123). -/
theorem counterAt_of_lt (p : Params) (epoch t : Nat) (h : epoch ≤ t) (hlt : t - epoch < p.tmrWrap) :
    counterAt p epoch t = t - epoch := by
  rw [counterAt_eq _ _ _ (by omega) h, Nat.mod_eq_of_lt hlt]

theorem counterAt_lt (p : Params) (epoch t : Nat) (hw : 0 < p.tmrWrap) : counterAt p epoch t < p.tmrWrap :=
  Nat.mod_lt _ hw

/-- The loop ends at the first tick that has the level, if that is within the budget. -/
theorem scan_met {p : Params} {src : Nat → Bool} {v : Bool} {epoch budget d : Nat} (hb : budget < p.tmrWrap)
    (hd : src d = v) (hde : d ≤ epoch + budget) :
    ∀ fuel t, epoch ≤ t → t ≤ d → d - t < fuel → (∀ u, t ≤ u → u < d → src u ≠ v) →
      scan p src v epoch budget fuel t = (true, d) := by
  intro fuel
  induction fuel with
  | zero => intro t _ _ hf; omega
  | succ n ih =>
    intro t het htd hf hno
    unfold scan
    by_cases hs : src t = v
    · have : t = d := by
        by_contra hne; exact hno t (le_refl _) (by omega) hs
      subst this; rw [if_pos hs]
    · have hne : t ≠ d := by rintro rfl; exact hs hd
      rw [if_neg hs, if_neg, ih (t + 1) (by omega) (by omega) (by omega) (fun u h1 h2 => hno u (by omega) h2)]
      rw [counterAt_of_lt _ _ _ het (by omega)]; omega

/-- The loop ends at the budget's last tick if no tick up to it has the level. -/
theorem scan_timeout {p : Params} {src : Nat → Bool} {v : Bool} {epoch budget : Nat} (hb : budget < p.tmrWrap) :
    ∀ fuel t, epoch ≤ t → t ≤ epoch + budget → epoch + budget - t < fuel →
      (∀ u, t ≤ u → u ≤ epoch + budget → src u ≠ v) →
      scan p src v epoch budget fuel t = (false, epoch + budget) := by
  intro fuel
  induction fuel with
  | zero => intro t _ _ hf; omega
  | succ n ih =>
    intro t het hte hf hno
    unfold scan
    rw [if_neg (hno t (le_refl _) hte)]
    by_cases he : t = epoch + budget
    · rw [if_pos]
      · rw [he]
      · rw [counterAt_of_lt _ _ _ het (by omega)]; omega
    · rw [if_neg, ih (t + 1) (by omega) (by omega) (by omega) (fun u h1 h2 => hno u (by omega) h2)]
      rw [counterAt_of_lt _ _ _ het (by omega)]; omega

/-- Time does not go back in the loop. -/
theorem scan_mono (p : Params) (src : Nat → Bool) (v : Bool) (epoch budget : Nat) :
    ∀ fuel t, t ≤ (scan p src v epoch budget fuel t).2 := by
  intro fuel
  induction fuel with
  | zero => intro t; exact le_refl _
  | succ n ih =>
    intro t
    unfold scan
    split
    · exact le_refl _
    · split
      · exact le_refl _
      · exact le_trans (Nat.le_succ t) (ih (t + 1))

/-- `wait_level` met: it returns at the first tick with the level, after the latency draw (R127 (a)). -/
theorem waitLevel_met (p : Params) (e : Env) {src : Nat → Bool} {v : Bool} {budget d : Nat} (s : State)
    (hb : budget < p.tmrWrap) (h1 : s.time ≤ d) (h2 : d ≤ s.time + budget) (hd : src d = v)
    (hno : ∀ u, s.time ≤ u → u < d → src u ≠ v) :
    waitLevel p e src v budget s = (true, latency p e { tmrStart s with time := d }) := by
  unfold waitLevel waitLevelUntil
  rw [tmrStart_epoch, tmrStart_time, scan_met hb hd h2 _ _ (le_refl _) h1 (by omega) hno]
  rfl

/-- `wait_level` timed out: it returns at the budget's last tick (R127 (b)). -/
theorem waitLevel_timeout (p : Params) (e : Env) {src : Nat → Bool} {v : Bool} {budget : Nat} (s : State)
    (hb : budget < p.tmrWrap) (hno : ∀ u, s.time ≤ u → u ≤ s.time + budget → src u ≠ v) :
    waitLevel p e src v budget s = (false, { tmrStart s with time := s.time + budget }) := by
  unfold waitLevel waitLevelUntil
  rw [tmrStart_epoch, tmrStart_time, scan_timeout hb _ _ (le_refl _) (by omega) (by omega) hno]
  rfl

/-- `wait_level` returns in one of these two ways and no other (R127). -/
theorem waitLevel_cases (p : Params) (e : Env) (src : Nat → Bool) (v : Bool) {budget : Nat} (s : State)
    (hb : budget < p.tmrWrap) :
    (∃ d, s.time ≤ d ∧ d ≤ s.time + budget ∧ src d = v ∧ (∀ u, s.time ≤ u → u < d → src u ≠ v) ∧
      waitLevel p e src v budget s = (true, latency p e { tmrStart s with time := d })) ∨
    ((∀ u, s.time ≤ u → u ≤ s.time + budget → src u ≠ v) ∧
      waitLevel p e src v budget s = (false, { tmrStart s with time := s.time + budget })) := by
  by_cases h : ∃ d, s.time ≤ d ∧ d ≤ s.time + budget ∧ src d = v
  · left
    have hn := Nat.find_spec h
    refine ⟨Nat.find h, hn.1, hn.2.1, hn.2.2, ?_, ?_⟩
    · intro u h1 h2 h3
      exact Nat.find_min h h2 ⟨h1, by omega, h3⟩
    · exact waitLevel_met p e s hb hn.1 hn.2.1 hn.2.2
        (fun u h1 h2 h3 => Nat.find_min h h2 ⟨h1, by omega, h3⟩)
  · right
    have hno : ∀ u, s.time ≤ u → u ≤ s.time + budget → src u ≠ v := fun u h1 h2 h3 => h ⟨u, h1, h2, h3⟩
    exact ⟨hno, waitLevel_timeout p e s hb hno⟩

/-! A state that differs only in the time, the epoch and the draw index. -/

/-- `t` is `s` later: only the time, the epoch and the draw index may differ, and the time has not gone back. -/
def Later (s t : State) : Prop :=
  ∃ now ep n, t = { s with time := now, epoch := ep, draws := n } ∧ s.time ≤ now

theorem Later.refl (s : State) : Later s s :=
  ⟨s.time, s.epoch, s.draws, rfl, le_refl _⟩

theorem Later.trans {s t u : State} (h1 : Later s t) (h2 : Later t u) : Later s u := by
  obtain ⟨n1, e1, d1, rfl, l1⟩ := h1
  obtain ⟨n2, e2, d2, rfl, l2⟩ := h2
  exact ⟨n2, e2, d2, rfl, le_trans l1 l2⟩

theorem Later.delay (p : Params) (e : Env) (n : Nat) (s : State) : Later s (delay p e n s) :=
  ⟨s.time + n + e.overshoot s.draws % (p.delaySlack + 1), _, _, rfl, by omega⟩

theorem Later.waitLevelUntil (p : Params) (e : Env) (src : Nat → Bool) (v : Bool) (budget : Nat) (s : State) :
    Later s (waitLevelUntil p e src v budget s).2 := by
  have h := scan_mono p src v s.epoch budget (budget + 1) s.time
  unfold Machine.waitLevelUntil
  split
  · next t heq => rw [heq] at h; exact ⟨t + e.latency s.draws % (p.pollSlack + 1), s.epoch, s.draws + 1, rfl, by simp at h; omega⟩
  · next t heq => rw [heq] at h; exact ⟨t, s.epoch, s.draws, rfl, h⟩

theorem Later.waitLevel (p : Params) (e : Env) (src : Nat → Bool) (v : Bool) (budget : Nat) (s : State) :
    Later s (waitLevel p e src v budget s).2 := by
  have h := Later.waitLevelUntil p e src v budget (tmrStart s)
  obtain ⟨n, ep, d, heq, hl⟩ := h
  exact ⟨n, ep, d, by unfold Machine.waitLevel; rw [heq]; rfl, hl⟩

end Sys2Proof.Machine
end

