-- ==== Sys2Proof/Laws/Engines.lean ====
section
/-! SUPPORT. What each engine's shared operations can do, said once: which fields they touch and what they leave in
them. -/

namespace Sys2Proof.Machine

/-! ## Single-wire engine -/

theorem Later.pair {s : State} {r : Bool × State} {b : Bool} {t : State} (h : Later s r.2) (hr : r = (b, t)) :
    Later s t := by
  rw [hr] at h; exact h

/-- The response check touches only the time, the epoch and the draw index. -/
theorem swsRespond_later (p : Params) (e : Env) (s : State) : Later s (swsRespond p e s).2 := by
  unfold swsRespond
  split
  · next h => exact Later.pair (Later.waitLevel ..) h
  · next s1 h1 =>
    have l1 : Later s s1 := Later.pair (Later.waitLevel ..) h1
    split
    · next h => exact l1.trans (Later.pair (Later.waitLevel ..) h)
    · next s2 h2 => exact (l1.trans (Later.pair (Later.waitLevel ..) h2)).trans (Later.waitLevel ..)

/-- Reading a byte touches only the time, the epoch and the draw index. -/
theorem readBits_later (p : Params) (e : Env) : ∀ (n : Nat) (b : Byte) (s : State), Later s (readBits p e n b s).2 := by
  intro n
  induction n with
  | zero => intro b s; exact Later.refl s
  | succ n ih =>
    intro b s
    unfold readBits
    split
    · next h => exact Later.pair (Later.waitLevel ..) h
    · next s1 h1 =>
      have l1 : Later s s1 := Later.pair (Later.waitLevel ..) h1
      have l2 := l1.trans (Later.delay p e p.swSampleDelay s1)
      dsimp only
      split
      · next h => exact l2.trans (Later.pair (Later.waitLevel ..) h)
      · next h => exact (l2.trans (Later.pair (Later.waitLevel ..) h)).trans (ih _ _)

/-- Reading the frame touches only `RAW`, the time, the epoch and the draw index. -/
theorem readFrame_later (p : Params) (e : Env) :
    ∀ (ks : List Nat) (s : State), ∃ r, Later { s with raw := r } (readFrame p e ks s) := by
  intro ks
  induction ks with
  | nil => intro s; exact ⟨s.raw, Later.refl s⟩
  | cons k ks ih =>
    intro s
    obtain ⟨now, ep, n, heq, hl⟩ := readBits_later p e p.swNbits 0 s
    unfold readFrame
    obtain ⟨r, now', ep', n', heq', hl'⟩ :=
      ih { (readBits p e p.swNbits 0 s).2 with raw := putRaw k (readBits p e p.swNbits 0 s).1 (readBits p e p.swNbits 0 s).2.raw }
    refine ⟨r, now', ep', n', ?_, ?_⟩
    · rw [heq', heq]
    · rw [heq] at hl'; exact le_trans hl hl'

/-- The start pulse: the time, the epoch, the draws, and `EPOCH_VALID` and `SW_OE` cleared. -/
theorem swsStart_later (p : Params) (e : Env) (s : State) :
    Later { s with epochValid := false, swOe := false } (swsStart p e s) :=
  ⟨(swsStart p e s).time, _, _, rfl, by simp [swsStart]; omega⟩

/-! ## Ranging engine -/

/-- The two echo waits touch only the time, the epoch and the draw index. -/
theorem rngEcho_later (p : Params) (e : Env) (s : State) : Later s (rngEcho p e s).2 := by
  unfold rngEcho
  split
  · next h => exact Later.pair (Later.waitLevelUntil ..) h
  · next s1 h1 =>
    have l1 : Later s s1 := Later.pair (Later.waitLevelUntil ..) h1
    split
    · next h => exact l1.trans (Later.pair (Later.waitLevelUntil ..) h)
    · next h => exact l1.trans (Later.pair (Later.waitLevelUntil ..) h)

/-- The trigger pulse: the time, the epoch, the draws, and `EPOCH_VALID` and `TRIG` cleared. -/
theorem rngTrigger_later (p : Params) (e : Env) (s : State) :
    Later { s with epochValid := false, trig := false } (rngTrigger p e s) :=
  ⟨(rngTrigger p e s).time, _, _, rfl, by simp [rngTrigger]; omega⟩

/-! ## Framebuffer -/

/-- A pixel write touches only the framebuffer. -/
theorem setPixel_frame (p : Params) (x y : Nat) (k : Bool) (s : State) :
    setPixel p x y k s = { s with fb := (setPixel p x y k s).fb } := by
  unfold setPixel; split <;> rfl

/-- What a pixel write leaves in each byte (R194). -/
theorem fbRead_setPixel (p : Params) (x y : Nat) (k : Bool) (s : State) (i : Nat) :
    fbRead (setPixel p x y k s) i =
      if x < p.width ∧ y < p.height ∧ i = pixelIndex p x y then withBit (fbRead s i) (pixelBit y) k
      else fbRead s i := by
  unfold setPixel
  split
  · next h => rw [if_neg]; omega
  · next h =>
    unfold fbRead fbWrite
    rw [Memory.read_write]
    by_cases hi : i = pixelIndex p x y
    · subst hi; rw [if_pos rfl, if_pos]; exact ⟨by omega, by omega, rfl⟩
    · rw [if_neg hi, if_neg]; rintro ⟨_, _, h3⟩; exact hi h3

/-- A bit of a byte after one bit was set or cleared. -/
theorem getLsbD_withBit (b : Byte) (j i : Nat) (v : Bool) (hi : i < 8) :
    (withBit b j v).getLsbD i = if i = j then v else b.getLsbD i := by
  unfold withBit
  by_cases hij : i = j
  · subst hij; cases v <;> simp [hi]
  · have h1 : (1#8 <<< j).getLsbD i = false := by
      rw [BitVec.getLsbD_shiftLeft]
      by_cases h : i < j
      · simp [h]
      · have : i - j ≠ 0 := by omega
        simp [h, this]
    cases v
    · simp only [Bool.false_eq_true, if_false, hij, BitVec.getLsbD_and, BitVec.getLsbD_not, h1]; simp [hi]
    · simp only [if_true, hij, if_false, BitVec.getLsbD_or, h1, Bool.or_false]

/-- The byte of an in-bounds pixel exists (R61, R62). -/
theorem pixelIndex_lt (p : Params) (x y : Nat) (hx : x < p.width) (hy : y < p.height) (h8 : p.height % 8 = 0) :
    pixelIndex p x y < fbSize p := by
  unfold pixelIndex fbSize
  have h : y / 8 + 1 ≤ p.height / 8 := by omega
  calc x + y / 8 * p.width < p.width + y / 8 * p.width := by omega
    _ = (y / 8 + 1) * p.width := by ring
    _ ≤ (p.height / 8) * p.width := Nat.mul_le_mul_right _ h
    _ = p.width * (p.height / 8) := Nat.mul_comm ..

/-- Two in-bounds pixels share a byte and a bit only if they are the same pixel (R61). -/
theorem pixel_injective (p : Params) (x y x' y' : Nat) (hx : x < p.width) (hx' : x' < p.width)
    (h : pixelIndex p x y = pixelIndex p x' y') (hb : pixelBit y = pixelBit y') : x = x' ∧ y = y' := by
  unfold pixelIndex at h
  unfold pixelBit at hb
  have h1 : (x + y / 8 * p.width) % p.width = x := by rw [Nat.add_mul_mod_self_right, Nat.mod_eq_of_lt hx]
  have h2 : (x' + y' / 8 * p.width) % p.width = x' := by rw [Nat.add_mul_mod_self_right, Nat.mod_eq_of_lt hx']
  have hxx : x = x' := by rw [← h1, ← h2, h]
  subst hxx
  have h3 : y / 8 * p.width = y' / 8 * p.width := by omega
  have h4 : y / 8 = y' / 8 := Nat.eq_of_mul_eq_mul_right (by omega) h3
  exact ⟨rfl, by omega⟩

/-- A pixel after a pixel write: the colour there, every other in-bounds pixel as before (R196). -/
theorem pixelAt_setPixel (p : Params) (x y : Nat) (k : Bool) (s : State) (x' y' : Nat)
    (hx' : x' < p.width) (hy' : y' < p.height) :
    pixelAt p (setPixel p x y k s) x' y' = if x' = x ∧ y' = y then k else pixelAt p s x' y' := by
  unfold pixelAt
  rw [fbRead_setPixel]
  by_cases hin : x < p.width ∧ y < p.height ∧ pixelIndex p x' y' = pixelIndex p x y
  · rw [if_pos hin, getLsbD_withBit _ _ _ _ (by unfold pixelBit; omega)]
    by_cases hb : pixelBit y' = pixelBit y
    · obtain ⟨rfl, rfl⟩ := pixel_injective p x' y' x y hx' hin.1 hin.2.2 hb
      simp
    · rw [if_neg hb, if_neg]; rintro ⟨rfl, rfl⟩; exact hb rfl
  · rw [if_neg hin, if_neg]; rintro ⟨rfl, rfl⟩; exact hin ⟨hx', hy', rfl⟩

/-- Painting a row of a glyph box touches only the framebuffer. -/
theorem foldl_frame {α : Type} (f : State → α → State) (hf : ∀ s a, f s a = { s with fb := (f s a).fb }) :
    ∀ (l : List α) (s : State), l.foldl f s = { s with fb := (l.foldl f s).fb } := by
  intro l
  induction l with
  | nil => intro s; rfl
  | cons a l ih =>
    intro s
    have h (x : List Host.Cell) : { f s a with fb := x } = { s with fb := x } := by rw [hf s a]
    exact (ih (f s a)).trans (h _)

theorem paintRow_frame (p : Params) (g : Byte) (k : Bool) (s : State) (r : Nat) :
    paintRow p g k s r = { s with fb := (paintRow p g k s r).fb } :=
  foldl_frame _ (fun _ _ => setPixel_frame ..) _ _

/-- Painting a glyph box touches only the framebuffer. -/
theorem paintGlyph_frame (p : Params) (g : Byte) (k : Bool) (s : State) :
    paintGlyph p g k s = { s with fb := (paintGlyph p g k s).fb } :=
  foldl_frame _ (fun _ _ => paintRow_frame ..) _ _

/-- A property of the framebuffer that every pixel write keeps holds after a glyph box. -/
theorem paintGlyph_keeps (p : Params) (P : List Host.Cell → Prop)
    (hP : ∀ x y k (s : State), P s.fb → P (setPixel p x y k s).fb) (g : Byte) (k : Bool) (s : State) (h : P s.fb) :
    P (paintGlyph p g k s).fb := by
  have keep : ∀ {α : Type} (f : State → α → State) (_ : ∀ s a, P s.fb → P (f s a).fb) (l : List α) (s : State),
      P s.fb → P (l.foldl f s).fb := by
    intro α f hf l
    induction l with
    | nil => intro s h; exact h
    | cons a l ih => intro s h; exact ih _ (hf s a h)
  exact keep _ (fun s r hs => keep _ (fun s c hs => hP _ _ _ s hs) _ s hs) _ s h

/-! ## Bus -/

/-- One ready-query: the responder's answer, and one event (R221). -/
theorem busReady_eq (e : Env) (a : Addr7) (s : State) :
    busReady e a s = (e.ack s.draws a, { s with
      trace := s.trace ++ [.ready a (e.ack s.draws a)], time := s.time + e.duration s.draws, draws := s.draws + 1 }) :=
  rfl

/-- Command transfers touch only the trace, the time and the draw index (R97, R224). -/
theorem sendCmds_eq (p : Params) (e : Env) (cs : List Byte) :
    ∀ s : State, ∃ now n, sendCmds p e cs s = { s with
      trace := s.trace ++ cs.map (fun c => .write s.boundAddr [p.ctrlCmd, c]), time := now, draws := n } ∧ s.time ≤ now := by
  unfold sendCmds
  induction cs with
  | nil => intro s; exact ⟨s.time, s.draws, by simp, le_refl _⟩
  | cons c cs ih =>
    intro s
    obtain ⟨now, n, heq, hl⟩ := ih (sendCmd p e c s)
    refine ⟨now, n, ?_, by rw [sendCmd_time] at hl; omega⟩
    rw [List.foldl_cons, heq]
    simp [sendCmd, busWrite, lapse]

/-- Data transfers touch only `TBUF`, the trace, the time and the draw index (R240). -/
theorem sendChunks_eq (p : Params) (e : Env) (ns : List Nat) :
    ∀ s : State, ∃ now n b, ns.foldl (sendChunk p e) s = { s with
      trace := s.trace ++ ns.map (fun i => .write s.boundAddr (p.ctrlData :: chunkBytes p s i))
      time := now, draws := n, tbuf := b } ∧ s.time ≤ now ∧ (s.tbuf.length = 1 + p.chunk → b.length = 1 + p.chunk) := by
  induction ns with
  | nil => intro s; exact ⟨s.time, s.draws, s.tbuf, by simp, le_refl _, id⟩
  | cons i ns ih =>
    intro s
    obtain ⟨now, n, b, heq, hl, hb⟩ := ih (sendChunk p e s i)
    refine ⟨now, n, b, ?_, ?_, fun _ => hb ?_⟩
    · rw [List.foldl_cons, heq]
      simp [sendChunk, sendData, busWrite, lapse, chunkBytes, fbRead]
    · simp only [sendChunk, sendData_time] at hl; omega
    · simp [sendChunk, chunkBytes]; omega

/-- A flush: the window commands and every chunk on the trace, and nothing else but `TBUF`, the time and the draws (R243). -/
theorem flush_eq (p : Params) (e : Env) (s : State) :
    ∃ now n b, flush p e s = { s with
      trace := s.trace ++ p.windowSeq.map (fun c => .write s.boundAddr [p.ctrlCmd, c]) ++
        (List.range (chunkCount p)).map (fun i => .write s.boundAddr (p.ctrlData :: chunkBytes p s i))
      time := now, draws := n, tbuf := b } ∧ s.time ≤ now ∧ (s.tbuf.length = 1 + p.chunk → b.length = 1 + p.chunk) := by
  obtain ⟨now1, n1, h1, l1⟩ := sendCmds_eq p e p.windowSeq s
  unfold flush
  obtain ⟨now2, n2, b2, h2, l2, hb⟩ := sendChunks_eq p e (List.range (chunkCount p)) (sendCmds p e p.windowSeq s)
  refine ⟨now2, n2, b2, ?_, ?_, ?_⟩
  · rw [h2, h1]; simp [chunkBytes, fbRead]
  · rw [h1] at l2; exact le_trans l1 l2
  · rw [h1] at hb; exact hb

/-- The phase after a data transfer: the next one, or the end of the command (R242). -/
theorem enterChunk_cases (p : Params) (e : Env) (n : Nat) (s : State) :
    (n < chunkCount p ∧ enterChunk p e n s = { s with seq := .dspChunk n }) ∨
    (chunkCount p ≤ n ∧ enterChunk p e n s = succeed e s) := by
  unfold enterChunk; split <;> simp_all

/-- The phase after a window command: the next one, or the data transfers (R240). -/
theorem enterWindow_cases (p : Params) (e : Env) (q : Nat) (s : State) :
    (q < p.windowSeq.length ∧ enterWindow p e q s = { s with seq := .dspWindow q }) ∨
    (p.windowSeq.length ≤ q ∧ enterWindow p e q s = enterChunk p e 0 s) := by
  unfold enterWindow; split <;> simp_all

/-- The phase after a configuration command: the next one, or the clear (R235). -/
theorem enterConfig_cases (p : Params) (q : Nat) (s : State) :
    (q < p.initSeq.length ∧ enterConfig p q s = { s with seq := .dspConfig q }) ∨
    (p.initSeq.length ≤ q ∧ enterConfig p q s = { s with seq := .dspClearing true }) := by
  unfold enterConfig; split <;> simp_all

/-- The phase after a pixel of a glyph box: a pixel of the box, or the end of the command (R200). -/
theorem enterGlyph_cases (p : Params) (e : Env) (r c : Nat) (s : State) :
    (∃ r' c', r' < p.fontH ∧ c' < p.fontW ∧ enterGlyph p e r c s = { s with seq := .dspGlyph r' c' }) ∨
    enterGlyph p e r c s = succeed e (advanceCursor p s) := by
  unfold enterGlyph
  split
  · next h => exact .inl ⟨r, c, h.1, h.2, rfl⟩
  · split
    · next h => exact .inl ⟨r + 1, 0, h.1, h.2, rfl⟩
    · exact .inr rfl

/-- Trials of one address: either one is acknowledged, which binds, or all are recorded unanswered (R230, R231). -/
theorem queryTrials_cases (e : Env) (a : Addr7) :
    ∀ (n : Nat) (s : State),
      (∃ k now d, k < n ∧ queryTrials e a n s = (true, { s with
        trace := s.trace ++ (List.replicate k (.ready a false) ++ [.ready a true])
        boundValid := true, boundAddr := a, time := now, draws := d }) ∧ s.time ≤ now) ∨
      (∃ now, queryTrials e a n s = (false, { s with
        trace := s.trace ++ List.replicate n (.ready a false), time := now, draws := s.draws + n }) ∧ s.time ≤ now) := by
  intro n
  induction n with
  | zero => intro s; right; exact ⟨s.time, by simp [queryTrials], le_refl _⟩
  | succ n ih =>
    intro s
    unfold queryTrials
    rw [busReady_eq]
    by_cases hk : e.ack s.draws a = true
    · left
      rw [hk]
      exact ⟨0, s.time + e.duration s.draws, s.draws + 1, by omega, by simp, by omega⟩
    · have hk' : e.ack s.draws a = false := by simpa using hk
      rw [hk']
      rcases ih { s with
          trace := s.trace ++ [.ready a false], time := s.time + e.duration s.draws, draws := s.draws + 1 } with
        ⟨k, now, d, hlt, heq, hl⟩ | ⟨now, heq, hl⟩
      · left
        refine ⟨k + 1, now, d, by omega, ?_, by simp at hl; omega⟩
        dsimp only
        rw [heq]; simp [List.replicate_succ]
      · right
        refine ⟨now, ?_, by simp at hl; omega⟩
        dsimp only
        rw [heq]; simp [List.replicate_succ]; omega

end Sys2Proof.Machine
end

