-- ==== Sys2Proof/Laws/PerInstr.lean ====
section
/-! SUPPORT. One law per instruction: the packet an instruction encodes to has the shape its format gives (30_encoding.md
R90, R95 to R101). -/

namespace Sys2Proof.Laws.Encoded

open Sys2Proof.Safety

/-- The shape of a packet, for the instruction it was encoded from: a `CMD` value is the opcode with zeros above (R90, R91);
a bus access has the write direction and a payload of 0, 2 or 17 bytes (R95, R100); a frame has 40 bits (R101). -/
def shape (i : Instr) : Packet → Prop
  | .cmd w => w.toNat < 256 ∧ opcode? i = some (w.setWidth 8)
  | .bus bytes => opcode? i = none ∧ ∃ b payload, bytes = b :: payload ∧ b.getLsbD 0 = false ∧
      (payload.length = 0 ∨ payload.length = 2 ∨ payload.length = 17)
  | .line bits => opcode? i = none ∧ bits.length = 40
  | .text _ _ _ => opcode? i = none

/-- What holds of every well-formed instruction. -/
def Statement (i : Instr) : Prop :=
  i.wf = true → shape i (encode i)

/-- Bit 0 of an address byte is 0 (R95). -/
theorem addressByte_bit0 (a : Addr7) : (addressByte a).getLsbD 0 = false := by
  simp [addressByte]

theorem tmrStart : Statement .tmrStart := fun _ => ⟨by decide, rfl⟩
theorem tmrElapsed : Statement .tmrElapsed := fun _ => ⟨by decide, rfl⟩
theorem tmrDelay : Statement .tmrDelay := fun _ => ⟨by decide, rfl⟩
theorem swsRead : Statement .swsRead := fun _ => ⟨by decide, rfl⟩
theorem rngMeasure : Statement .rngMeasure := fun _ => ⟨by decide, rfl⟩
theorem dspProbe : Statement .dspProbe := fun _ => ⟨by decide, rfl⟩
theorem dspInit : Statement .dspInit := fun _ => ⟨by decide, rfl⟩
theorem dspClear : Statement .dspClear := fun _ => ⟨by decide, rfl⟩
theorem dspSetPixel : Statement .dspSetPixel := fun _ => ⟨by decide, rfl⟩
theorem dspSetCursor : Statement .dspSetCursor := fun _ => ⟨by decide, rfl⟩
theorem dspWriteChar : Statement .dspWriteChar := fun _ => ⟨by decide, rfl⟩
theorem dspFlush : Statement .dspFlush := fun _ => ⟨by decide, rfl⟩

theorem dspWriteString (codes : List Byte) (font color : Word) : Statement (.dspWriteString codes font color) :=
  fun _ => rfl

theorem reserved (op : Byte) : Statement (.reserved op) := by
  intro _
  refine ⟨?_, ?_⟩
  · have := op.isLt
    simp only [BitVec.toNat_setWidth]
    omega
  · simp [opcode?]

theorem busCmdTransfer (a : Addr7) (c : Byte) : Statement (.busCmdTransfer a c) :=
  fun _ => ⟨rfl, _, _, rfl, addressByte_bit0 a, .inr (.inl rfl)⟩

theorem busDataTransfer (a : Addr7) (d : List Byte) : Statement (.busDataTransfer a d) := by
  intro h
  have hd : d.length = 16 := by simpa [Instr.wf, Config.chunk] using h
  exact ⟨rfl, _, _, rfl, addressByte_bit0 a, .inr (.inr (by simp [hd]))⟩

theorem busReadyQuery (a : Addr7) : Statement (.busReadyQuery a) :=
  fun _ => ⟨rfl, _, _, rfl, addressByte_bit0 a, .inl rfl⟩

theorem swFrame (h f t g k : Byte) : Statement (.swFrame h f t g k) :=
  fun _ => ⟨rfl, rfl⟩

end Sys2Proof.Laws.Encoded
end

