-- ==== Sys2Proof/Laws/Step.lean ====
section
/-! SUPPORT. What a step does, by what stands at the head of the inbox, and what one row of the sequencer does to the
inbox: the case split every statement about steps starts from. -/

namespace Sys2Proof.Machine

/-- The reference configuration decodes the formats as the spec writes them. -/
theorem decodeFor_params (pk : Packet) : decodeFor params pk = decode pk := rfl

/-- Between commands the head of the inbox is delivered. -/
theorem step_of_idle {s : State} {x : HostInput} {rest : List HostInput} (h : s.inbox = x :: rest)
    (hs : s.seq = .idle) : step s = deliver exec params env x { s with inbox := rest } := by
  unfold step advance; rw [h]; exact if_pos (.inl hs)

/-- `rst` is delivered at any time. -/
theorem step_of_rst {s : State} {rest : List HostInput} (h : s.inbox = .rst :: rest) :
    step s = .next (hardReset params env { s with inbox := rest }) := by
  unfold step advance; rw [h]; exact if_pos (.inr (.inl rfl))

/-- `wait` passes one row, or idle time. -/
theorem step_of_wait {s : State} {rest : List HostInput} (h : s.inbox = .wait :: rest) :
    step s = .next (pass params env { s with inbox := rest }) := by
  unfold step advance; rw [h]; exact if_pos (.inr (.inr rfl))

/-- With nothing to deliver, one row or idle time passes. -/
theorem step_of_nil {s : State} (h : s.inbox = []) : step s = .next (pass params env s) := by
  unfold step advance; rw [h]

/-- While a command runs, any other access waits and one row passes. -/
theorem step_of_running {s : State} {x : HostInput} {rest : List HostInput} (h : s.inbox = x :: rest)
    (hs : s.seq ≠ .idle) (h1 : x ≠ .rst) (h2 : x ≠ .wait) : step s = .next (seqStep params env s) := by
  unfold step advance; rw [h]; exact if_neg (by rintro (h | h | h) <;> contradiction)

theorem pass_of_idle (p : Params) (e : Env) {s : State} (hs : s.seq = .idle) : pass p e s = lapse e s :=
  if_pos hs

theorem pass_of_running (p : Params) (e : Env) {s : State} (hs : s.seq ≠ .idle) : pass p e s = seqStep p e s :=
  if_neg hs

/-- What a step can be: an instruction between commands (a `CMD` write or a packet that decodes), a write of another
register, a read, the beginning of a command, a row of the sequencer, idle time, or a reset. -/
theorem step_cases {s t : State} (h : step s = .next t) :
    (∃ i rest, s.seq = .idle ∧ (∃ pk, decode pk = .ok i) ∧ exec i { s with inbox := rest } = .next t) ∨
    (∃ index v rest, s.seq = .idle ∧ t = regWrite index v { s with inbox := rest }) ∨
    (∃ index rest, s.seq = .idle ∧ t = hostRead index { s with inbox := rest }) ∨
    (∃ v rest, s.seq = .idle ∧ t = seqBegin params env (decodeCmd v) { s with inbox := rest }) ∨
    (∃ rest, s.seq ≠ .idle ∧ t = seqStep params env { s with inbox := rest }) ∨
    (∃ rest, s.seq = .idle ∧ t = lapse env { s with inbox := rest }) ∨
    (∃ rest, s.inbox = .rst :: rest ∧ t = hardReset params env { s with inbox := rest }) := by
  have hpass : ∀ rest, t = pass params env { s with inbox := rest } →
      (∃ rest, s.seq ≠ .idle ∧ t = seqStep params env { s with inbox := rest }) ∨
      (∃ rest, s.seq = .idle ∧ t = lapse env { s with inbox := rest }) := by
    intro rest ht
    by_cases hs : s.seq = .idle
    · exact .inr ⟨rest, hs, ht.trans (pass_of_idle (s := { s with inbox := rest }) _ _ hs)⟩
    · exact .inl ⟨rest, hs, ht.trans (pass_of_running (s := { s with inbox := rest }) _ _ hs)⟩
  have hrun : ∀ pk rest, s.seq = .idle → runPacket exec params pk { s with inbox := rest } = .next t →
      ∃ i rest, s.seq = .idle ∧ (∃ pk, decode pk = .ok i) ∧ exec i { s with inbox := rest } = .next t := by
    intro pk rest hs hr
    unfold runPacket at hr
    split at hr
    · next i hi => exact ⟨i, rest, hs, ⟨pk, hi⟩, hr⟩
    · cases hr
  cases hin : s.inbox with
  | nil =>
    rw [step_of_nil hin] at h
    have ht : t = pass params env { s with inbox := s.inbox } := (Host.Outcome.next.inj h).symm
    rcases hpass _ ht with h | h
    · exact .inr (.inr (.inr (.inr (.inl h))))
    · exact .inr (.inr (.inr (.inr (.inr (.inl h)))))
  | cons x rest =>
    by_cases hs : s.seq = .idle
    · rw [step_of_idle hin hs] at h
      cases x with
      | write index v =>
        unfold deliver at h
        dsimp only at h
        split at h
        · exact .inl (hrun _ rest hs h)
        · exact .inr (.inl ⟨index, v, rest, hs, (Host.Outcome.next.inj h).symm⟩)
      | read index => exact .inr (.inr (.inl ⟨index, rest, hs, (Host.Outcome.next.inj h).symm⟩))
      | beginCmd v => exact .inr (.inr (.inr (.inl ⟨v, rest, hs, (Host.Outcome.next.inj h).symm⟩)))
      | wait =>
        rcases hpass rest (Host.Outcome.next.inj h).symm with h | h
        · exact .inr (.inr (.inr (.inr (.inl h))))
        · exact .inr (.inr (.inr (.inr (.inr (.inl h)))))
      | rst => exact .inr (.inr (.inr (.inr (.inr (.inr ⟨rest, rfl, (Host.Outcome.next.inj h).symm⟩)))))
      | packet pk => exact .inl (hrun _ rest hs h)
    · by_cases h1 : x = .rst
      · subst h1
        rw [step_of_rst hin] at h
        exact .inr (.inr (.inr (.inr (.inr (.inr ⟨rest, rfl, (Host.Outcome.next.inj h).symm⟩)))))
      · by_cases h2 : x = .wait
        · subst h2
          rw [step_of_wait hin] at h
          rcases hpass rest (Host.Outcome.next.inj h).symm with h | h
          · exact .inr (.inr (.inr (.inr (.inl h))))
          · exact .inr (.inr (.inr (.inr (.inr (.inl h)))))
        · rw [step_of_running hin hs h1 h2] at h
          exact .inr (.inr (.inr (.inr (.inl ⟨s.inbox, hs, (Host.Outcome.next.inj h).symm⟩))))

end Sys2Proof.Machine
end

