-- ==== Sys2Proof/Tests/Slice0.lean ====
section
/-! SUPPORT. Tests. Expected values are the spec's own vectors (95_test_vectors.md, named V-…) or are computed by hand from
the rule named. After them, for every statement with hypotheses, a witness that meets all of them together. -/

namespace Sys2Proof.Tests

open Sys2Proof.Machine Sys2Proof.Safety

/-! ## Fixtures -/

/-- F-GLYPH, a row as seven bits, leftmost column most significant. -/
def glyphRows (g : Byte) : List Nat :=
  if g = 0x4F then [0, 0b0011100, 0b0100010, 0b0100010, 0b0100010, 0b0100010, 0b0100010, 0b0011100, 0, 0]
  else if g = 0x4B then [0, 0b0100010, 0b0100100, 0b0101000, 0b0110000, 0b0101000, 0b0100100, 0b0100010, 0, 0]
  else []

/-- F-CFG with F-GLYPH. -/
def cfg : Params :=
  { params with
    addrPrimary := 0x3C
    addrSecondary := 0x3D
    initSeq := [0xD5, 0x80, 0xA8, 0x3F, 0xD3, 0x00, 0x40, 0x8D, 0x14, 0x20, 0x00, 0xA1] ++
      [0xC8, 0xDA, 0x12, 0x81, 0xCF, 0xD9, 0xF1, 0xDB, 0x40, 0xA4, 0xA6, 0xAF]
    windowSeq := [0x21, 0x00, 0x7F, 0x22, 0x00, 0x07]
    fontLast := 0x7E
    glyph := fun g r c => ((glyphRows g).getD r 0).testBit (6 - c) }

/-- No sensor, no echo, no display, every duration draw 0. -/
def quiet : Env :=
  { line := fun _ => true, echo := fun _ => false, ack := fun _ _ => false, duration := fun _ => 0
    overshoot := fun _ => 0, latency := fun _ => 0, elapsed := fun _ => 0xBEEF, epoch := fun _ => 7
    scratch := fun _ _ => 0xA5 }

/-- The level `t` ticks into a sequence of segments; high after the last. -/
def levelIn : List (Bool × Nat) → Nat → Bool
  | [], _ => true
  | (v, n) :: segs, t => if t < n then v else levelIn segs (t - n)

/-- The level `t` ticks into the cells of some bits, each low 50, then high `h0` or `h1`; at the end low 50, then high. -/
def cellLevel (h0 h1 : Nat) : List Bool → Nat → Bool
  | [], t => decide (50 ≤ t)
  | b :: bits, t =>
    if t < 50 then false
    else if t < 50 + cond b h1 h0 then true
    else cellLevel h0 h1 bits (t - (50 + cond b h1 h0))

/-- F-SW from tick `tin` for the bits of a frame. -/
def waveform (tin pre h0 h1 : Nat) (bits : List Bool) (t : Nat) : Bool :=
  if t < tin + pre then true
  else if t < tin + pre + 80 then false
  else if t < tin + pre + 160 then true
  else cellLevel h0 h1 bits (t - (tin + pre + 160))

/-- The forty bits of R157, bytes 60, 0, 25, 0, 85. -/
def frameBits : List Bool :=
  [false, false, true, true, true, true, false, false] ++ [false, false, false, false, false, false, false, false] ++
  [false, false, false, true, true, false, false, true] ++ [false, false, false, false, false, false, false, false] ++
  [false, true, false, true, false, true, false, true]

/-- A display at one address. -/
def displayAt (a : Addr7) : Env :=
  { quiet with ack := fun _ b => b == a }

/-- An echo of width `w` rising `r` ticks after the pulse of a command begun at tick 0. -/
def echoAt (r w : Nat) : Env :=
  { quiet with echo := fun t => decide (12 + r ≤ t) && decide (t < 12 + r + w) }

/-- The state after one instruction, if it is a next state. -/
def ran (p : Params) (e : Env) (i : Instr) (s : State) : Option State :=
  match execFor p e i s with
  | .next t => some t
  | .fault _ => none
  | .refused _ => none

/-- The state after one step of the machine of a configuration, if it is a next state. -/
def stepped (p : Params) (e : Env) (s : State) : Option State :=
  match stepFor p e s with
  | .next t => some t
  | .fault _ => none
  | .refused _ => none

/-- Reset state with operands. -/
def args (a b c : Word) : State :=
  { State.reset with arg0 := a, arg1 := b, arg2 := c }

/-- Reset state bound to an address. -/
def bound (a : Addr7) : State :=
  { State.reset with boundValid := true, boundAddr := a }

/-- Framebuffer bytes `i .. i + n - 1`. -/
def bytesAt (i n : Nat) (s : State) : List Byte :=
  (List.range n).map fun j => fbRead s (i + j)

/-! ## Well-formedness -/

theorem test_wf_reserved : (Instr.reserved 0x37).wf = true ∧ (Instr.reserved 0x33).wf = false := by decide

theorem test_wf_data_transfer :
    (Instr.busDataTransfer 0x3C (List.replicate 16 0)).wf = true ∧
    (Instr.busDataTransfer 0x3C (List.replicate 15 0)).wf = false ∧
    (Instr.busDataTransfer 0x3C (List.replicate 17 0)).wf = false := by decide

/-! ## Decoding (R91, R95, R97, R98, R99, R101), every constructor by a word written out -/

theorem test_decode_timer :
    decode (.cmd 0b0000000000000001) = .ok .tmrStart ∧ decode (.cmd 0b0000000000000010) = .ok .tmrElapsed ∧
    decode (.cmd 0b0000000000000011) = .ok .tmrDelay := ⟨rfl, rfl, rfl⟩

theorem test_decode_sensors :
    decode (.cmd 0b0000000000010000) = .ok .swsRead ∧ decode (.cmd 0b0000000000100000) = .ok .rngMeasure :=
  ⟨rfl, rfl⟩

theorem test_decode_display :
    decode (.cmd 0b0000000000110000) = .ok .dspProbe ∧ decode (.cmd 0b0000000000110001) = .ok .dspInit ∧
    decode (.cmd 0b0000000000110010) = .ok .dspClear ∧ decode (.cmd 0b0000000000110011) = .ok .dspSetPixel ∧
    decode (.cmd 0b0000000000110100) = .ok .dspSetCursor ∧ decode (.cmd 0b0000000000110101) = .ok .dspWriteChar ∧
    decode (.cmd 0b0000000000110110) = .ok .dspFlush := ⟨rfl, rfl, rfl, rfl, rfl, rfl, rfl⟩

/-- `DSP_WRITE_STRING "OK", 0, 1` (R107). -/
theorem test_decode_string : decode (.text [0x4F, 0x4B] 0 1) = .ok (.dspWriteString [0x4F, 0x4B] 0 1) := rfl

/-- V-EN13, V-EN14: `CMD[15:8]` is ignored; the opcodes around the table's are reserved. -/
theorem test_decode_reserved :
    decode (.cmd 0xAB01) = .ok .tmrStart ∧ decode (.cmd 0x0000) = .ok (.reserved 0x00) ∧
    decode (.cmd 0x0004) = .ok (.reserved 0x04) ∧ decode (.cmd 0x0037) = .ok (.reserved 0x37) ∧
    decode (.cmd 0x00FF) = .ok (.reserved 0xFF) := ⟨rfl, rfl, rfl, rfl, rfl⟩

/-- Section 3.5: 0xAF to 0x3C is `78 00 AF`, to 0x3D `7A 00 AF`; a data transfer of zeros; the ready-query of 0x3D. -/
theorem test_decode_bus :
    decode (.bus [0b01111000, 0b00000000, 0b10101111]) = .ok (.busCmdTransfer 0x3C 0xAF) ∧
    decode (.bus [0x7A, 0x00, 0xAF]) = .ok (.busCmdTransfer 0x3D 0xAF) ∧
    decode (.bus (0x78 :: 0b01000000 :: List.replicate 16 0)) = .ok (.busDataTransfer 0x3C (List.replicate 16 0)) ∧
    decode (.bus [0b01111010]) = .ok (.busReadyQuery 0x3D) := ⟨rfl, rfl, rfl, rfl⟩

/-- R157: the forty bits of bytes 60, 0, 25, 0, 85. -/
theorem test_decode_frame :
    decode (.line frameBits) = .ok (.swFrame 60 0 25 0 85) := by rfl

/-- What is none of the formats is refused by name (R95, R96, R100, R101). -/
theorem test_decode_refuses :
    decode (.bus []) = .error .noAddress ∧ decode (.bus [0x79]) = .error .readDirection ∧
    decode (.bus [0x78, 0x80, 0xAF]) = .error .controlByte ∧ decode (.bus [0x78, 0x00]) = .error .payloadLength ∧
    decode (.bus [0x78, 0x40, 0x00]) = .error .payloadLength ∧
    decode (.line (List.replicate 39 true)) = .error .frameLength := ⟨rfl, rfl, rfl, rfl, rfl, rfl⟩

/-- The table's numbering: `a` in bits 23:17, `c` in bits 7:0; a frame's first byte in bits 39:32. -/
theorem test_decode_table_word :
    decodeTableWord 8 0x33 = some .dspSetPixel ∧ decodeTableWord 8 0x37 = some (.reserved 0x37) ∧
    decodeTableWord 24 0x7800AF = some (.busCmdTransfer 0x3C 0xAF) ∧ decodeTableWord 8 0x7A = some (.busReadyQuery 0x3D) ∧
    decodeTableWord 40 0x3C00190055 = some (.swFrame 60 0 25 0 85) ∧
    decodeTableWord 144 0x784000000000000000000000000000000004 =
      some (.busDataTransfer 0x3C (List.replicate 15 0 ++ [4])) := by decide

/-- V-EN9, V-EN10, V-EN12. -/
theorem test_command_lines :
    commandLine 0x33 [5, 10, 1] = [.write 2 0x0005, .write 3 0x000A, .write 4 0x0001, .write 0 0x0033] ∧
    commandLine 0x34 [0, 0] = [.write 2 0, .write 3 0, .write 0 0x0034] ∧
    commandLine 0x36 [] = [.write 0 0x0036] := by decide

/-! ## The timer -/

/-- V-T1. -/
theorem test_tmr_start :
    (ran cfg quiet .tmrStart { State.reset with time := 5000 }).map (fun t => (t.epoch, statusByte t)) =
      some (5000, 0x09) := by decide

/-- V-T2, V-T4: the counter, and its wrap. -/
theorem test_tmr_elapsed :
    (ran cfg quiet .tmrElapsed { State.reset with epoch := 5000, epochValid := true, time := 5250 }).map
      (fun t => (t.result, t.epoch, t.stOk)) = some (250, 5000, true) ∧
    (ran cfg quiet .tmrElapsed { State.reset with epoch := 5000, epochValid := true, time := 70536 }).map
      (fun t => t.result) = some 0 := by decide

/-- V-T10: with no valid epoch the result is the draw. -/
theorem test_tmr_elapsed_invalid :
    (ran cfg quiet .tmrElapsed State.reset).map (fun t => (t.result, statusByte t)) = some (0xBEEF, 0x01) := by decide

/-- V-T8; V-T9 with the draw 7, which is 3 modulo 4. -/
theorem test_tmr_delay :
    (ran cfg quiet .tmrDelay { args 65535 0 0 with time := 100, epochValid := true }).map
      (fun t => (t.time, t.epochValid, t.stOk)) = some (65635, false, true) ∧
    (ran { cfg with delaySlack := 3 } { quiet with overshoot := fun _ => 7 } .tmrDelay { args 40 0 0 with time := 100 }).map
      (fun t => t.time) = some 143 := by decide

/-- V-W3, V-W4: the last sample of the budget still counts. -/
theorem test_wait_level_boundary :
    (waitLevel cfg quiet (fun t => decide (1100 ≤ t)) true 100 { State.reset with time := 1000 }).1 = true ∧
    (waitLevel cfg quiet (fun t => decide (1101 ≤ t)) true 100 { State.reset with time := 1000 }).1 = false ∧
    (waitLevel cfg quiet (fun t => decide (1101 ≤ t)) true 100 { State.reset with time := 1000 }).2.time = 1100 := by
  decide +kernel

/-! ## The single-wire engine -/

/-- V-SW1. -/
theorem test_sws_read :
    (ran cfg { quiet with line := waveform 18030 10 26 70 frameBits } .swsRead State.reset).map
      (fun t => (t.time, t.stOk, t.swData, t.swTemp, t.swOe)) = some (21724, true, ⟨60, 0, 25, 0, 85⟩, 25, false) := by
  decide +kernel

/-- V-SW5: a response, then low forever, is accepted. -/
theorem test_sws_read_silent :
    (ran cfg { quiet with line := fun t => decide (t < 18040) || (decide (18120 ≤ t) && decide (t < 18200)) }
      .swsRead State.reset).map (fun t => (t.time, t.stOk, t.swData)) = some (18700, true, Reading.zero) := by
  decide +kernel

/-- R102: 40 high ticks read 0, 41 read 1; bits fill from the top (R146). -/
theorem test_bit_threshold :
    (readBits cfg { quiet with line := levelIn ([(false, 50), (true, 40), (false, 50), (true, 41), (false, 50)]) } 2 0
      State.reset).1 = 0b01 ∧
    (readBits cfg { quiet with line := levelIn ([(false, 50), (true, 41), (false, 50), (true, 40), (false, 50)]) } 2 0
      State.reset).1 = 0b10 := by decide +kernel

/-- V-SW6's byte: after the first bit's rise the line stays high, the byte is 0x80. -/
theorem test_bit_truncates : (readBits cfg quiet 8 0 State.reset).1 = 0x80 := by decide +kernel

/-- S3: (165, 90, 255, 0, 254) is accepted. -/
theorem test_sw_frame_accepts :
    (ran cfg quiet (.swFrame 165 90 255 0 254) State.reset).map (fun t => (t.stOk, t.swData, t.swTemp)) =
      some (true, ⟨165, 90, 255, 0, 254⟩, 255) := by decide

/-- S3: (60, 0, 25, 0, 86) is rejected and nothing is committed. -/
theorem test_sw_frame_rejects :
    (ran cfg quiet (.swFrame 60 0 25 0 86) State.reset).map (fun t => (t.stOk, t.swData, t.raw.checksum)) =
      some (false, Reading.zero, 86) := by decide

/-! ## The ranging engine -/

/-- V-RN1. -/
theorem test_rng_measure :
    (ran cfg (echoAt 500 1000) .rngMeasure State.reset).map (fun t => (t.result, t.time, statusByte t)) =
      some (17, 1512, 0x01) := by decide +kernel

/-- V-RN6: over the ceiling. V-EN15: refused without the unit. -/
theorem test_rng_ceiling :
    (ran cfg (echoAt 500 1236) .rngMeasure State.reset).map (fun t => (t.result, t.time)) = some (999, 1748) ∧
    (ran { cfg with hasRng := false } quiet .rngMeasure State.reset).map (fun t => (statusByte t, t.result)) =
      some (0x02, 0) := by decide +kernel

/-! ## The framebuffer -/

/-- V-CL1. -/
theorem test_dsp_clear :
    (ran cfg quiet .dspClear { State.reset with fb := [(0, 1), (1023, 0x80)], curX := 9, curY := 9 }).map
      (fun t => (t.fb, t.curX, t.curY, t.trace)) = some ([], 9, 9, []) := by decide

/-- V-PX2, V-PX3. -/
theorem test_dsp_set_pixel :
    (ran cfg quiet .dspSetPixel (args 5 10 1)).map (fun t => t.fb) = some [(133, 0x04)] ∧
    (ran cfg quiet .dspSetPixel (args 127 63 1)).map (fun t => t.fb) = some [(1023, 0x80)] := by decide

/-- V-PX8 (with V-PX13's operand), V-PX9, V-PX10. -/
theorem test_dsp_set_pixel_clears :
    (ran cfg quiet .dspSetPixel { args 5 10 2 with fb := [(133, 0xFF)] }).map (fun t => t.fb) = some [(133, 0xFB)] ∧
    (ran cfg quiet .dspSetPixel (args 128 0 1)).map (fun t => (t.fb, t.stOk)) = some ([], true) ∧
    (ran cfg quiet .dspSetPixel (args 0 64 1)).map (fun t => (t.fb, t.stOk)) = some ([], true) := by decide

/-- V-CU1. -/
theorem test_dsp_set_cursor :
    (ran cfg quiet .dspSetCursor (args 300 70 0)).map (fun t => (t.curX, t.curY, t.fb)) = some (300, 70, []) := by decide

/-- V-WC3: inverse video, both pages of the box. -/
theorem test_dsp_write_char_inverse :
    (ran cfg quiet .dspWriteChar (args 0x014F 0 0)).map (fun t => (bytesAt 0 8 t, bytesAt 128 8 t, t.curX)) =
      some ([0xFF, 0x83, 0x7D, 0x7D, 0x7D, 0x83, 0xFF, 0], [3, 3, 3, 3, 3, 3, 3, 0], 7) := by decide +kernel

/-- V-WC7: clipped at the corner. V-WC11: font 1 is refused. -/
theorem test_dsp_write_char_clipped :
    (ran cfg quiet .dspWriteChar { args 0x4F 0 1 with curX := 124, curY := 60 }).map (fun t => (t.fb, t.curX, t.curY)) =
      some ([(1021, 0xC0), (1022, 0x20), (1023, 0x20)], 131, 60) ∧
    (ran cfg quiet .dspWriteChar { args 0x41 1 1 with curX := 3, curY := 4 }).map (fun t => (statusByte t, t.fb, t.curX)) =
      some (0x02, [], 3) := by decide +kernel

/-- V-WC1: "OK" at (0, 0). -/
theorem test_dsp_write_string :
    (ran cfg quiet (.dspWriteString [0x4F, 0x4B] 0 1) State.reset).map (fun t => (bytesAt 0 15 t, t.curX, t.curY, t.arg0)) =
      some ([0, 0x7C, 0x82, 0x82, 0x82, 0x7C, 0, 0, 0xFE, 0x10, 0x28, 0x44, 0x82, 0, 0], 14, 0, 0x4B) := by
  decide +kernel

/-! ## The bus -/

/-- V-BUS2. V-BUS7: refused when bound. -/
theorem test_dsp_probe :
    (ran cfg (displayAt 0x3D) .dspProbe State.reset).map (fun t => (t.trace, dspAddrByte t, statusByte t)) =
      some ([.ready 0x3C false, .ready 0x3D true], 0xBD, 0x05) ∧
    (ran cfg quiet .dspProbe (bound 0x3C)).map (fun t => (t.trace, statusByte t)) = some ([], 0x06) := by decide

/-- V-BUS6: three trials, the third is acknowledged. -/
theorem test_dsp_probe_trials :
    (ran { cfg with probeTrials := 3 } { quiet with ack := fun n _ => n == 2 } .dspProbe State.reset).map
      (fun t => (t.trace, dspAddrByte t)) =
      some ([.ready 0x3C false, .ready 0x3C false, .ready 0x3C true], 0xBC) := by decide

/-- P3: no display; nothing is written, nothing is cleared. -/
theorem test_dsp_init_fails :
    (ran cfg quiet .dspInit { State.reset with fb := [(133, 4)] }).map (fun t => (t.trace, statusByte t, t.fb)) =
      some ([.ready 0x3C false, .ready 0x3D false], 0x00, [(133, 4)]) := by decide

/-- Section 3.5: 95 events, the query, the first and last configuration byte, the first window byte, the last chunk. -/
theorem test_dsp_init :
    (ran cfg (displayAt 0x3C) .dspInit { State.reset with fb := [(133, 4)] }).map
      (fun t => (t.trace.length, [t.trace[0]?, t.trace[1]?, t.trace[24]?, t.trace[25]?, t.trace[94]?], t.fb)) =
      some (95, [some (.ready 0x3C true), some (.write 0x3C [0, 0xD5]), some (.write 0x3C [0, 0xAF]),
        some (.write 0x3C [0, 0x21]), some (.write 0x3C (0x40 :: List.replicate 16 0))], []) := by decide +kernel

/-- V-BUS3, R244: 70 events; data transfer 8 carries the pixel. V-BUS8: refused when unbound. -/
theorem test_dsp_flush :
    (ran cfg quiet .dspFlush { bound 0x3C with fb := [(133, 4)] }).map
      (fun t => (t.trace.length, [t.trace[0]?, t.trace[5]?, t.trace[14]?], statusByte t, t.fb)) =
      some (70, [some (.write 0x3C [0, 0x21]), some (.write 0x3C [0, 0x07]),
        some (.write 0x3C [0x40, 0, 0, 0, 0, 0, 4, 0, 0, 0, 0, 0, 0, 0, 0, 0, 0])], 0x05, [(133, 4)]) ∧
    (ran cfg quiet .dspFlush State.reset).map (fun t => (statusByte t, t.trace)) = some (0x02, []) := by decide +kernel

/-- V-EN14, P5: refused, nothing else changed. -/
theorem test_reserved :
    ran cfg quiet (.reserved 0x7F) State.reset = some { State.reset with stIll := true, draws := 1 } := by decide

/-- Section 3.5: the wire bytes of the three accesses. -/
theorem test_bus_accesses :
    (ran cfg quiet (.busCmdTransfer 0x3D 0xAF) State.reset).map (fun t => t.trace.map wireBytes) =
      some [[0x7A, 0x00, 0xAF]] ∧
    (ran cfg quiet (.busDataTransfer 0x3C (List.replicate 16 0)) State.reset).map (fun t => t.trace.map wireBytes) =
      some [0x78 :: 0x40 :: List.replicate 16 0] ∧
    (ran cfg quiet (.busReadyQuery 0x3C) State.reset).map (fun t => t.trace.map wireBytes) = some [[0x78]] := by decide

/-- A data transfer of another length stops (R100). -/
theorem test_bus_data_length : execFor cfg quiet (.busDataTransfer 0x3C [0]) State.reset = .fault .transferLength := rfl

/-- R226: a ready-query is start, the address byte, the acknowledge slot, stop. -/
theorem test_wire_symbols :
    wireSymbols (.ready 0x3C true) =
      [.start, .bit false, .bit true, .bit true, .bit true, .bit true, .bit false, .bit false, .bit false, .ackSlot,
       .stop] := by decide

/-! ## Registers, steps, configuration -/

/-- V-EN16: writes to read-only and reserved registers are ignored. -/
theorem test_read_only_registers :
    stepped cfg quiet { State.reset with inbox := [.write 0x5 0x1234] } = some State.reset ∧
    stepped cfg quiet { State.reset with inbox := [.write 0xC 7] } = some State.reset ∧
    stepped cfg quiet { State.reset with inbox := [.write 0xF 1] } = some State.reset := by decide

/-- V-BUS1 read back: `STATUS = 0x05`, `DSP_ADDR = 0xBC`. -/
theorem test_register_reads :
    regRead { bound 0x3C with stOk := true } 0x1 = 0x0005 ∧ regRead (bound 0x3C) 0xE = 0x00BC ∧
    regRead { args 1 2 3 with curX := 14 } 0xC = 14 ∧ regRead (args 1 2 3) 0x0 = 0 := by decide

/-- A step takes the command off the inbox and runs it: V-EN9's last write. -/
theorem test_step :
    (stepped cfg quiet { args 5 10 1 with inbox := [.write 0 0x0033, .read 1] }).map (fun t => (t.fb, t.inbox)) =
      some ([(133, 4)], [.read 1]) := by decide

/-- R21, R160: a command begun row by row stalls the host; the first row of `SWS_READ` pulls the line. -/
theorem test_sequencer_rows :
    (stepped cfg quiet { State.reset with inbox := [.beginCmd 0x10, .read 1] }).map (fun t => (t.swOe, t.seq, t.inbox)) =
      some (true, .swStartLow, [.read 1]) ∧
    (stepped cfg quiet { State.reset with seq := .swStartLow, swOe := true, time := 17999, inbox := [.read 1] }).map
      (fun t => (t.swOe, t.seq, t.time, t.inbox)) = some (true, .swStartLow, 18000, [.read 1]) ∧
    (stepped cfg quiet { State.reset with seq := .swStartLow, swOe := true, time := 18000 }).map
      (fun t => (t.swOe, t.seq, t.time, t.epoch)) = some (false, .swStartHigh, 18000, 18000) := by decide +kernel

/-- R71, R132: row by row too, `TMR_DELAY` clears `EPOCH_VALID` after its delay and not before. -/
theorem test_sequencer_delay_order :
    let s := { args 1 0 0 with time := 100, epoch := 90, epochValid := true }
    [0, 1, 2].map (fun n =>
      let t := seqRun cfg quiet n (seqBegin cfg quiet .tmrDelay s)
      (t.seq, t.time, t.epochValid)) = [(.tmrWait, 100, true), (.tmrWait, 101, true), (.idle, 101, false)] := by
  decide +kernel

/-- R50, R51: a reset during a command releases the line and keeps time and trace. -/
theorem test_rst :
    (stepped cfg quiet { bound 0x3C with
      seq := .swStartLow, swOe := true, time := 77, trace := [.ready 0x3C true], arg0 := 9, inbox := [.rst] }).map
      (fun t => ((t.swOe, t.seq, t.boundValid), t.time, t.trace)) =
      some ((false, .idle, false), 77, [.ready 0x3C true]) := by decide

/-- R11: the test configuration is legal; one that breaks a constraint is refused by name. -/
theorem test_configuration :
    configErrors cfg = [] ∧ configErrors { cfg with height := 60 } = [.height] ∧
    configErrors { cfg with addrSecondary := 0x3C } = [.addresses] ∧
    configErrors { cfg with width := 1, height := 8 } = [.chunks] ∧ configErrors { cfg with chunk := 0 } = [.chunks] ∧
    configErrors { cfg with ctrlData := cfg.ctrlCmd } = [.controlBytes] ∧
    configErrors { cfg with tmrHz := 32768 } = [.counter] ∧ configErrors { cfg with tmrWrap := 65535 } = [.counter] ∧
    configErrors { cfg with swNbytes := 4 } = [.frame] ∧ configErrors { cfg with rngDen := 0 } = [.divisor] ∧
    configErrors { cfg with rngMaxCm := 65536 } = [.ceiling] ∧ configErrors { cfg with rngMaxCm := 65535 } = [] ∧
    configErrors { cfg with delaySlack := 47536 } = [.startLowWraps] ∧ configErrors { cfg with delaySlack := 47535 } = [] ∧
    configErrors { cfg with pollSlack := 5536 } = [.intervalWraps] ∧ configErrors { cfg with fontLast := 0x59 } = [.font] := by
  decide +kernel

/-- R8, R39: `CHUNK` and the control bytes are parameters of the step and of the decoder: 32 chunks of 32 bytes after 0xC0. -/
theorem test_configuration_chunk :
    (stepped { cfg with chunk := 32, ctrlData := 0xC0 } quiet { bound 0x3C with inbox := [.write 0 0x0036] }).map
      (fun t => (t.trace.length, t.trace[37]?)) = some (38, some (.write 0x3C (0xC0 :: List.replicate 32 0))) ∧
    (stepped { cfg with chunk := 2, ctrlData := 0xC0 } quiet
      { State.reset with inbox := [.packet (.bus [0x78, 0xC0, 1, 2])] }).map
      (fun t => t.trace) = some [.write 0x3C [0xC0, 1, 2]] := by decide +kernel

theorem test_configuration_refused :
    stepFor { cfg with height := 60 } quiet State.reset = .refused (.configuration .height) := rfl

/-! ## Witnesses: states and operands that meet the hypotheses of each statement together -/

theorem witness_EncodedInstructionsDecodeBack :
    (Instr.reserved 0xFF).wf = true ∧ (Instr.busDataTransfer 0x7F (List.replicate 16 0xFF)).wf = true := by decide

theorem witness_AcceptedPacketsEncodeBack :
    decode (.bus [0xFE, 0x00, 0xFF]) = .ok (.busCmdTransfer 0x7F 0xFF) ∧ decode (.cmd 0xFFFF) = .ok (.reserved 0xFF) :=
  ⟨rfl, rfl⟩

/-- One access before the reset state. -/
def given (x : HostInput) : State :=
  { State.reset with inbox := [x] }

theorem witness_StepRunsTheDecodedInstruction :
    (given (.write 0 0x33)).seq = .idle ∧ (given (.write 0 0x33)).inbox = .write 0#4 0x33 :: [] ∧
    (given (.packet (.bus [0x78]))).inbox = .packet (.bus [0x78]) :: [] ∧ decode (.bus [0x78]) = .ok (.busReadyQuery 0x3C) ∧
    (given (.packet (.bus []))).inbox = .packet (.bus []) :: [] ∧ decode (.bus []) = .error .noAddress ∧
    decodeTableWord 24 0x7800AF = some (.busCmdTransfer 0x3C 0xAF) :=
  ⟨rfl, rfl, rfl, rfl, rfl, rfl, rfl⟩

/-- Every clause at the index next to the operands' range, and at both ends of the map. -/
theorem witness_HostAccessesReachOnlyOperands :
    State.reset.seq = .idle ∧ (given (.read 0xF)).inbox = .read 0xF :: [] ∧
    (∀ index ∈ [2#4, 3#4, 4#4, 1#4, 5#4, 15#4], (given (.write index 9)).inbox = .write index 9 :: []) ∧
    (∀ index ∈ [1#4, 5#4, 15#4], index ≠ 0#4 ∧ index ≠ 2#4 ∧ index ≠ 3#4 ∧ index ≠ 4#4) := by decide

theorem witness_HostStallsWhileACommandRuns :
    { given (.read 1) with seq := .tmrWait }.seq ≠ .idle ∧ (given (.read 1)).inbox = .read 1 :: [] ∧
    HostInput.read 1 ≠ .rst ∧ HostInput.read 1 ≠ .wait ∧ (given (.beginCmd 0x10)).seq = .idle ∧
    (given (.beginCmd 0x10)).inbox = .beginCmd 0x10 :: [] ∧ (given .wait).inbox = .wait :: [] ∧
    State.reset.inbox = [] := by decide

theorem witness_ResetAbandonsAnything :
    { given .rst with seq := .swBitDelay 2 3 0xA0, swOe := true }.inbox = .rst :: [] := rfl

/-- Each of the five grounds, at a state that has it. -/
theorem witness_RefusedCommandsChangeNothingElse :
    State.reset.seq = .idle ∧ ((0x0037#16).setWidth 8 : Byte) ∉ definedOpcodes ∧
    (((0x0020#16).setWidth 8 : Byte) = 0x20 ∧ { cfg with hasRng := false }.hasRng = false) ∧
    (((0x0035#16).setWidth 8 : Byte) = 0x35 ∧ (args 0x41 1 1).arg1 ≠ 0) ∧
    (((0x0036#16).setWidth 8 : Byte) = 0x36 ∧ State.reset.boundValid = false) ∧
    (((0x0031#16).setWidth 8 : Byte) = 0x31 ∧ (bound 0x3C).boundValid = true) := by decide

/-- Both ends of each range are reserved; the opcodes between the ranges are not. -/
theorem witness_ReservedOpcodesAreRefused :
    (∀ op ∈ ([0x00, 0x04, 0x0F, 0x11, 0x1F, 0x21, 0x2F, 0x37, 0xFF] : List Byte),
      op = 0x00 ∨ (0x04 ≤ op ∧ op ≤ 0x0F) ∨ (0x11 ≤ op ∧ op ≤ 0x1F) ∨ (0x21 ≤ op ∧ op ≤ 0x2F) ∨ 0x37 ≤ op) ∧
    (∀ op ∈ definedOpcodes,
      ¬(op = 0x00 ∨ (0x04 ≤ op ∧ op ≤ 0x0F) ∨ (0x11 ≤ op ∧ op ≤ 0x1F) ∨ (0x21 ≤ op ∧ op ≤ 0x2F) ∨ 0x37 ≤ op)) := by
  decide

theorem witness_TmrElapsedReportsTheCounter :
    let s := { State.reset with epochValid := true, epoch := 5000, time := 70536 }
    s.epochValid = true ∧ (s.epochValid = true → s.epoch ≤ s.time) ∧
      State.reset.epochValid = false ∧ (State.reset.epochValid = true → State.reset.epoch ≤ State.reset.time) := by
  decide

/-- The largest budget, and a first match at its last tick. -/
theorem witness_WaitLevelReturnsAtTheFirstMatch :
    65535 < cfg.tmrWrap ∧ State.reset.time ≤ 65535 ∧ (fun t : Nat => decide (t = 65535)) 65535 = true ∧
    ∀ u, State.reset.time ≤ u → u < 65535 → (fun t : Nat => decide (t = 65535)) u ≠ true := by
  refine ⟨by decide, by decide, by decide, fun u _ h => by simpa using Nat.ne_of_lt h⟩

theorem witness_StuckLinesFailTheResponse :
    (∀ t, quiet.line t = true) ∧ ∀ t, { quiet with line := fun _ => false }.line t = false :=
  ⟨fun _ => rfl, fun _ => rfl⟩

/-- V-SW6: the line stays high from the first bit's rise, after the longest low there can be and after a low of one tick. -/
theorem witness_StuckLinesFailTheResponse_high :
    ∀ j ∈ [1, 100],
      let line := fun t => decide (t < 18040) || (decide (18120 ≤ t) && decide (t < 18200)) || decide (18200 + j ≤ t)
      responseOn line (State.reset.time + 18030) 10 80 80 = true ∧ j ≤ 100 ∧
        (∀ u < j, line (State.reset.time + 18030 + 10 + 80 + 80 + u) = false) ∧
        ∀ t, State.reset.time + 18030 + 10 + 80 + 80 + j ≤ t → line t = true := by
  intro j hj line
  simp only [List.mem_cons, List.not_mem_nil, or_false] at hj
  refine ⟨?_, by omega, fun u hu => ?_, fun t ht => ?_⟩
  · rcases hj with rfl | rfl <;> decide +kernel
  · simp [line, State.reset]; omega
  · simp [line, State.reset] at ht ⊢; omega

/-- The threshold from both sides, and the ends of both ranges. -/
theorem witness_BitReadsOneAboveFortyTicks :
    ∀ x ∈ [(0, 1), (50, 40), (50, 41), (100, 140), (9, 200)],
      let line := levelIn [(false, x.1), (true, x.2), (false, 200)]
      State.reset.swOe = false ∧ x.1 ≤ 100 ∧ 1 ≤ x.2 ∧ (∀ u < x.1, line (0 + u) = false) ∧
        (∀ u < x.2, line (0 + x.1 + u) = true) ∧ (∀ u < max x.2 40 + 1, x.2 ≤ u → line (0 + x.1 + u) = false) := by
  decide +kernel

/-- The bits of bytes 60, 0, 25, 0, 85, the first on the line most significant. -/
def frameNumber : Nat := 0x3C00190055

/-- A response, then a frame in cells of 60 ticks: low 10, high 50 for a 1 or 40 for a 0, low for the rest. -/
def sensorLine (t : Nat) : Bool :=
  if t < 18040 then true
  else if t < 18120 then false
  else if t < 18200 then true
  else decide (10 ≤ (t - 18200) % 60) &&
    decide ((t - 18200) % 60 < if frameNumber.testBit (39 - (t - 18200) / 60) then 60 else 50) &&
    decide (t < 20600)

/-- The cells of that frame. After a 0 the block waits from 10 ticks before the next cell. -/
def sensorCells : List Cell :=
  (List.range 40).map fun i =>
    ⟨frameNumber.testBit (39 - i), if frameNumber.testBit (40 - i) || i == 0 then 10 else 20,
      if frameNumber.testBit (39 - i) then 50 else 40⟩

theorem witness_SensorFrameIsReceived :
    responseOn sensorLine (State.reset.time + 18030) 10 80 80 = true ∧
    sensorCells.map Cell.bit = ([60, 0, 25, 0, 85] : List Byte).flatMap bitsOfByte ∧
    cellsOn sensorLine sensorCells (State.reset.time + 18030 + 10 + 80 + 80) = true := by
  decide +kernel

theorem witness_SilentFrameIsAccepted :
    let line := fun t => decide (t < 18040) || (decide (18120 ≤ t) && decide (t < 18200))
    responseOn line (State.reset.time + 18030) 10 80 80 = true ∧
      ∀ u < 501, line (State.reset.time + 18030 + 10 + 80 + 80 + u) = false := by
  decide +kernel

/-- Bytes cut short: at once, after seven bits the last of which is a 1, after seven the last of which is a 0. Each with the
low ticks left before a rise that comes, and `j` as the block counts them. -/
theorem witness_SilentFrameIsAccepted_cut :
    ∀ x ∈ ([([], 0, 0), (List.replicate 7 ⟨true, 10, 50⟩, 100, 100),
        (List.replicate 6 ⟨true, 10, 50⟩ ++ [⟨false, 10, 30⟩], 110, 100)] : List (List Cell × Nat × Nat)),
      let segs := x.1.flatMap fun c => [(false, c.low), (true, c.high)]
      let silent := levelIn (segs ++ [(false, 200)])
      let stuck := levelIn (segs ++ [(false, x.2.1)])
      State.reset.swOe = false ∧ x.1.length ≤ 7 ∧ cellsOn silent x.1 State.reset.time = true ∧
        (∀ u < 101, silent (cellsEnd x.1 State.reset.time + u) = false) ∧
        cellsOn stuck x.1 State.reset.time = true ∧ x.2.2 ≤ 100 ∧
        (∀ u < x.2.2, stuck (cellsEnd x.1 State.reset.time + u) = false) ∧
        ∀ u < 141, stuck (cellsEnd x.1 State.reset.time + x.2.2 + u) = true := by
  decide +kernel

/-- An echo at the last tick of the wait for the rise; the widest that is below the ceiling, the next one, the longest. -/
theorem witness_EchoIsMeasured :
    ∀ x ∈ [(30000, 1), (500, 1235), (500, 1236), (0, 30000)], x.1 ≤ 30000 ∧ 1 ≤ x.2 ∧ x.2 ≤ 30000 ∧
      (∀ u, u < x.1 → (echoAt x.1 x.2).echo (State.reset.time + 12 + u) = false) ∧
      (∀ u, u < x.2 → (echoAt x.1 x.2).echo (State.reset.time + 12 + x.1 + u) = true) ∧
      (echoAt x.1 x.2).echo (State.reset.time + 12 + x.1 + x.2) = false := by
  have h : ∀ r w : Nat, (∀ u, u < r → (echoAt r w).echo (State.reset.time + 12 + u) = false) ∧
      (∀ u, u < w → (echoAt r w).echo (State.reset.time + 12 + r + u) = true) ∧
      (echoAt r w).echo (State.reset.time + 12 + r + w) = false := by
    intro r w
    simp only [echoAt, State.reset, Bool.and_eq_true, Bool.and_eq_false_iff, decide_eq_true_eq, decide_eq_false_iff_not]
    exact ⟨fun u _ => by omega, fun u _ => by omega, by omega⟩
  simp only [List.mem_cons, List.not_mem_nil, or_false, forall_eq_or_imp, forall_eq]
  refine ⟨?_, ?_, ?_, ?_⟩ <;> exact ⟨by decide, by decide, by decide, h _ _⟩

theorem witness_MissingEdgesGiveTheSentinels :
    (∀ u, u ≤ 30000 → quiet.echo (State.reset.time + 12 + u) = false) ∧
    (∀ u, u < 30000 → (echoAt 30000 30001).echo (State.reset.time + 12 + u) = false) ∧
    (∀ u, u ≤ 30000 → (echoAt 30000 30001).echo (State.reset.time + 12 + 30000 + u) = true) := by
  refine ⟨fun _ _ => rfl, fun u _ => ?_, fun u _ => ?_⟩ <;>
    simp only [echoAt, State.reset, Bool.and_eq_true, Bool.and_eq_false_iff, decide_eq_true_eq,
      decide_eq_false_iff_not] <;> omega

/-- A legal configuration, with the last pixel, the last byte and the last bit. -/
theorem witness_PixelMappingIsABijection :
    configErrors cfg = [] ∧ 127 < cfg.width ∧ 63 < cfg.height ∧ 1023 < fbSize cfg ∧ 7 < 8 := by decide +kernel

theorem witness_SetPixelWritesOneBit :
    (args 127 63 1).arg0.toNat < 128 ∧ (args 127 63 1).arg1.toNat < 64 ∧ (126 ≠ (127 : Nat) ∨ 63 ≠ (63 : Nat)) ∧
    133 ≠ pixelIndex params 127 63 := by decide

theorem witness_SetPixelOutOfBoundsIsIgnored :
    128 ≤ (args 128 0 1).arg0.toNat ∧ 64 ≤ (args 0 64 1).arg1.toNat := by decide

theorem witness_WriteCharPaintsTheBox : (args 0x4F 0 1).arg1 = 0 := rfl

/-- Both sides of both ends of the font. -/
theorem witness_UnknownCodesRenderAsSpace :
    configErrors cfg = [] ∧ ((0x1F#16).setWidth 8 : Byte) < cfg.fontFirst ∧
    cfg.fontLast < ((0x7F#16).setWidth 8 : Byte) ∧ cfg.fontFirst ≤ 0x20#8 ∧ 0x7E#8 ≤ cfg.fontLast := by decide +kernel

theorem witness_WriteStringIsItsExpansion : State.reset.seq = .idle := rfl

theorem witness_ProbeBindsTheFirstToAnswer : State.reset.boundValid = false := rfl

theorem witness_InitClearsExactlyIfItBinds : State.reset.boundValid = false ∧ fbSize params = 1024 := by decide

theorem witness_FailedInitWritesNothing :
    State.reset.boundValid = false ∧
    (∀ k, k < cfg.probeTrials → quiet.ack (State.reset.draws + k) cfg.addrPrimary = false) ∧
    (∀ k, k < cfg.probeTrials → quiet.ack (State.reset.draws + cfg.probeTrials + k) cfg.addrSecondary = false) :=
  ⟨rfl, fun _ _ => rfl, fun _ _ => rfl⟩

theorem witness_InitSendsConfigurationThenAFlush :
    State.reset.boundValid = false ∧
    { quiet with ack := fun _ _ => true }.ack State.reset.draws params.addrPrimary = true ∧
    { quiet with ack := fun n _ => n == 1 }.ack State.reset.draws params.addrPrimary = false ∧
    { quiet with ack := fun n _ => n == 1 }.ack (State.reset.draws + 1) params.addrSecondary = true := ⟨rfl, rfl, rfl, rfl⟩

theorem witness_FlushSendsWindowThenChunks : (bound 0x3C).boundValid = true := rfl

theorem witness_FlushContentIsTheFramebuffer : configErrors cfg = [] := by decide +kernel

theorem witness_BusAccessesRecordTheirEvent :
    (List.replicate 16 (0 : Byte)).length = 16 ∧ (List.replicate 15 (0 : Byte)).length ≠ 16 ∧
    (List.replicate 17 (0 : Byte)).length ≠ 16 := by decide

theorem witness_OnlyTwoCommandsWriteResult :
    ∃ t, exec .tmrElapsed { State.reset with epochValid := true, time := 5 } = .next t ∧ t.result ≠ State.reset.result :=
  ⟨_, rfl, by decide⟩

theorem witness_CommandsNeverWriteOperands :
    ∃ t, (∀ codes font color, Instr.dspClear ≠ .dspWriteString codes font color) ∧ exec .dspClear (args 1 2 3) = .next t :=
  ⟨_, (fun _ _ _ h => Instr.noConfusion h), rfl⟩

theorem witness_EachUnitWritesOnlyItsOwn :
    (∃ t, exec .dspSetPixel (args 5 10 1) = .next t ∧ t.fb ≠ (args 5 10 1).fb) ∧
    (∃ t, exec .dspSetCursor (args 5 10 1) = .next t ∧ t.curX ≠ (args 5 10 1).curX) ∧
    (∃ t, exec (.swFrame 60 0 25 0 85) State.reset = .next t ∧ t.swData ≠ State.reset.swData) :=
  ⟨⟨_, rfl, by decide⟩, ⟨_, rfl, by decide⟩, ⟨_, rfl, by decide⟩⟩

theorem witness_InMemoryCommandsAreSilent :
    ∃ t, exec (.busCmdTransfer 0x3C 0xAF) State.reset = .next t ∧ t.trace ≠ State.reset.trace :=
  ⟨_, rfl, by decide⟩

theorem witness_DisplayCommandsKeepTheEpoch :
    ∃ t, exec .tmrStart { State.reset with time := 5 } = .next t ∧ t.epochValid ≠ State.reset.epochValid :=
  ⟨_, rfl, by decide⟩

theorem witness_BindingIsPermanent :
    ∃ t, step { bound 0x3C with inbox := [.write 0 0x30] } = .next t ∧ (bound 0x3C).boundValid = true ∧
      (∀ rest, ([.write 0 0x30] : List HostInput) ≠ .rst :: rest) ∧
      ∀ init second n, (bound 0x3C).seq ≠ .dspProbe init second n :=
  ⟨_, rfl, rfl, fun _ h => by simp at h, fun _ _ _ h => by simp [bound, State.reset] at h⟩

/-- A state with a byte of framebuffer, a reading and a binding that meets every invariant, and its step. -/
def used : State :=
  { State.reset with
    fb := [(133, 4)], swData := ⟨60, 0, 25, 0, 85⟩, swTemp := 25, boundValid := true, boundAddr := params.addrPrimary
    stOk := true, epochValid := true, epoch := 3, time := 8, trace := [.write 0x3C [0, 0xAF]]
    inbox := [.write 0 0x32] }

/-- The other end of every phase's range: the last data transfer of a bound block, the one query of an unbound one. -/
theorem witness_StepKeepsInvariants_sequencer :
    SequencerInv params used ∧ SequencerInv params { used with seq := .dspChunk 63 } ∧
    SequencerInv params { State.reset with seq := .dspProbe true true 0 } ∧
    SequencerInv params { used with seq := .swBitSample 4 7 0xFF } := by
  unfold SequencerInv; decide +kernel

theorem witness_steps : ∃ t, step used = .next t := ⟨_, rfl⟩

theorem witness_StepKeepsInvariants :
    FramebufferInv params used ∧ ReadingInv used ∧ BindingInv params used ∧ StatusInv used ∧ LinesInv used ∧
      TimerInv used ∧ BusInv used := by
  refine ⟨⟨by decide, by decide⟩, ⟨by decide, by decide⟩, ⟨?_, fun _ => .inl rfl⟩, by unfold StatusInv; decide,
    ⟨?_, ?_⟩, fun _ => ⟨by decide, by decide⟩, ⟨by decide, by decide⟩⟩ <;> exact fun h => by cases h

theorem witness_ScratchNeverMatters :
    ∃ t, (State.reset.epochValid = true → 99 = State.reset.epoch) ∧ exec .swsRead State.reset = .next t :=
  ⟨_, (fun h => Bool.noConfusion h), rfl⟩

theorem witness_SequencerReachesTheCommandResult :
    configErrors cfg = [] ∧ cfg.lowWaitBounded = true ∧ State.reset.seq = .idle := by decide +kernel

theorem witness_UnboundedLowWaitHangs :
    { cfg with lowWaitBounded := false }.lowWaitBounded = false ∧
    { State.reset with seq := .swBitWaitLow 4 7 0xFF }.seq = .swBitWaitLow 4 7 0xFF ∧ State.reset.swOe = false ∧
    ∀ t, State.reset.time ≤ t → quiet.line t = true := ⟨rfl, rfl, rfl, fun _ _ => rfl⟩

end Sys2Proof.Tests
end

/-! Proofs for 00_scope.md: the reference configuration is legal, and `exec` and `step` are the configured machine's in it. -/

namespace Sys2Proof.Machine

/-- Each row's meaning is the configured one, the reference configuration and environment put in (R8, R10, R39). -/
theorem exec_eq_execFor (i : Instr) (s : State) : exec i s = execFor params env i s := by
  cases i <;> rfl

theorem errorUnless_of_true {holds : Bool} {e : ConfigError} (h : holds = true) : errorUnless holds e = [] :=
  if_pos h

/-- The two display addresses are distinct, whatever the open constants are: the offset between them is not 0 (R11). -/
theorem addrPrimary_ne_addrSecondary : Config.addrPrimary ≠ addrSecondary := by
  have offset_ne_zero : (if Config.addrOffset = 0 then 1 else Config.addrOffset) ≠ (0 : Addr7) := by
    split
    · decide
    · assumption
  intro h
  exact offset_ne_zero ((BitVec.xor_right_inj Config.addrPrimary).mp (h.symm.trans BitVec.xor_zero.symm))

/-- The font reaches `Z`, whatever its open end is (R10). -/
theorem le_fontLast : 0x5A#8 ≤ fontLast := by
  unfold fontLast
  split
  · exact BitVec.le_refl _
  · exact BitVec.not_lt.mp ‹_›

/-- The reference configuration breaks no constraint: two of them rest on the open constants, the others on R8's and R10's
values (R11). -/
theorem configErrors_params : configErrors params = [] := by
  have hfont : (params.fontFirst ≤ Config.space && Config.space ≤ params.fontLast && 0x5A#8 ≤ params.fontLast) = true := by
    have hspace : Config.space ≤ fontLast := BitVec.le_trans (by decide) le_fontLast
    simp [params, hspace, le_fontLast]
  have haddr : (params.addrPrimary != params.addrSecondary) = true := bne_iff_ne.mpr addrPrimary_ne_addrSecondary
  unfold configErrors
  rw [errorUnless_of_true hfont, errorUnless_of_true haddr]
  decide

/-- A configuration that breaks no constraint is taken (R11). -/
theorem configure_of_legal {p : Params} (h : configErrors p = []) : configure p = .ok p := by
  unfold configure; rw [h]

/-- The machine of a configuration that breaks no constraint takes its steps with that configuration's `execFor`. -/
theorem stepFor_of_legal {p : Params} (h : configErrors p = []) (e : Env) (s : State) :
    stepFor p e s = advance (execFor p e) p e s := by
  unfold stepFor; rw [configure_of_legal h]

theorem step_eq_stepFor (s : State) : step s = stepFor params env s := by
  have hexec : exec = execFor params env := funext₂ exec_eq_execFor
  rw [stepFor_of_legal configErrors_params, ← hexec]
  rfl

/-- Settles O4: instruction by instruction for `exec`, and for `step` because the reference configuration is legal. -/
theorem execIsTheReferenceMachine : Obligations.ExecIsTheReferenceMachine :=
  ⟨exec_eq_execFor, configure_of_legal configErrors_params, step_eq_stepFor⟩

end Sys2Proof.Machine

/-! What the commands can do, one lemma per engine: which fields a command touches and how it ends (R93, R104). -/

namespace Sys2Proof.Machine

/-- A read that has ended: `RAW` holds some bytes and the line is released; it failed, or they pass the checksum and were
committed (R149 to R152). -/
def ReadEnded (e : Env) (s t : State) : Prop :=
  ∃ raw u, Later { s with epochValid := false, swOe := false, raw := raw } u ∧
    (t = fail e u ∨ checksumHolds raw = true ∧ t = succeed e (commitReading u))

/-- A measurement that has ended: only the result, the trigger, the epoch and the time are touched (R172, R179). -/
def MeasureEnded (e : Env) (s t : State) : Prop :=
  ∃ r u, Later { s with epochValid := false, trig := false } u ∧ t = succeed e { u with result := r }

/-- Bus traffic: only the trace, which grows, `TBUF`, the time and the draw index are touched. -/
def Sent (s t : State) : Prop :=
  ∃ events now n b, t = { s with trace := s.trace ++ events, time := now, draws := n, tbuf := b } ∧ s.time ≤ now

theorem Sent.trans {s t u : State} (h1 : Sent s t) (h2 : Sent t u) : Sent s u := by
  obtain ⟨ev1, now1, n1, b1, rfl, l1⟩ := h1
  obtain ⟨ev2, now2, n2, b2, rfl, l2⟩ := h2
  exact ⟨ev1 ++ ev2, now2, n2, b2, by simp, le_trans l1 l2⟩

theorem sendCmds_sent (p : Params) (e : Env) (cs : List Byte) (s : State) : Sent s (sendCmds p e cs s) := by
  obtain ⟨now, n, h, l⟩ := sendCmds_eq p e cs s
  exact ⟨_, now, n, s.tbuf, h, l⟩

theorem sendChunk_sent (p : Params) (e : Env) (s : State) (n : Nat) : Sent s (sendChunk p e s n) :=
  ⟨[_], _, _, _, rfl, Nat.le_add_right ..⟩

theorem busWrite_sent (e : Env) (a : Addr7) (payload : List Byte) (s : State) : Sent s (busWrite e a payload s) :=
  ⟨[_], _, _, s.tbuf, rfl, Nat.le_add_right ..⟩

theorem sendData_sent (p : Params) (e : Env) (a : Addr7) (d : List Byte) (s : State) : Sent s (sendData p e a d s) :=
  ⟨[_], _, _, _, rfl, Nat.le_add_right ..⟩

theorem busReady_sent (e : Env) (a : Addr7) (s : State) : Sent s (busReady e a s).2 :=
  ⟨[_], _, _, s.tbuf, rfl, Nat.le_add_right ..⟩

theorem sendChunks_sent (p : Params) (e : Env) (ns : List Nat) (s : State) : Sent s (ns.foldl (sendChunk p e) s) := by
  obtain ⟨now, n, b, h, l, _⟩ := sendChunks_eq p e ns s
  exact ⟨_, now, n, b, h, l⟩

theorem flush_sent (p : Params) (e : Env) (s : State) : Sent s (flush p e s) :=
  (sendCmds_sent ..).trans (sendChunks_sent ..)

/-- The checksum step fails, or commits bytes that pass (R149 to R151). -/
theorem swsCheck_cases (e : Env) (s : State) :
    swsCheck e s = fail e s ∨ checksumHolds s.raw = true ∧ swsCheck e s = succeed e (commitReading s) := by
  unfold swsCheck
  split
  · next h => exact .inr ⟨h, rfl⟩
  · exact .inl rfl

theorem ReadEnded.swsCheck (e : Env) {s u : State} {raw : Reading}
    (h : Later { s with epochValid := false, swOe := false, raw := raw } u) : ReadEnded e s (swsCheck e u) := by
  have hraw : u.raw = raw := by obtain ⟨_, _, _, rfl, _⟩ := h; rfl
  refine ⟨raw, u, h, ?_⟩
  rw [← hraw]
  exact swsCheck_cases e u

theorem swsReadCmd_ended (p : Params) (e : Env) (s : State) : ReadEnded e s (swsReadCmd p e s) := by
  have start := swsStart_later p e s
  unfold swsReadCmd
  split
  · next s1 h => exact ⟨s.raw, s1, start.trans ((swsRespond_later ..).pair h), .inl rfl⟩
  · next s1 h =>
    obtain ⟨now1, ep1, n1, rfl, l1⟩ := start.trans ((swsRespond_later ..).pair h)
    obtain ⟨raw, now2, ep2, n2, heq, l2⟩ := readFrame_later p e (List.range p.swNbytes) _
    exact .swsCheck e ⟨now2, ep2, n2, heq, le_trans l1 l2⟩

theorem swFrame_ended (e : Env) (r : Reading) (s : State) : ReadEnded e s (swFrame e r s) :=
  .swsCheck e ⟨s.time + e.duration s.draws, e.epoch s.draws, s.draws + 1, rfl, Nat.le_add_right ..⟩

theorem rngMeasure_cases (p : Params) (e : Env) (s : State) :
    MeasureEnded e s (rngMeasure p e s) ∨ rngMeasure p e s = refuse e s := by
  unfold rngMeasure
  split
  · exact .inl ⟨_, _, (rngTrigger_later p e s).trans (rngEcho_later ..), rfl⟩
  · exact .inr rfl

/-- Trials of one address are bus traffic, and bind it exactly if one is acknowledged (R231). -/
theorem queryTrials_sent (e : Env) (a : Addr7) (n : Nat) (s : State) :
    (∃ u, Sent s u ∧ queryTrials e a n s = (true, { u with boundValid := true, boundAddr := a })) ∨
    (∃ u, Sent s u ∧ queryTrials e a n s = (false, u)) := by
  rcases queryTrials_cases e a n s with ⟨k, now, d, _, h, l⟩ | ⟨now, h, l⟩
  · exact .inl ⟨_, ⟨_, now, d, s.tbuf, rfl, l⟩, h⟩
  · exact .inr ⟨_, ⟨_, now, _, s.tbuf, rfl, l⟩, h⟩

/-- A probe is bus traffic, and binds one of the two candidates exactly if it succeeds (R230, R231). -/
theorem probe_cases (p : Params) (e : Env) (s : State) :
    (∃ u a, Sent s u ∧ (a = p.addrPrimary ∨ a = p.addrSecondary) ∧
      probe p e s = (true, { u with boundValid := true, boundAddr := a })) ∨
    (∃ u, Sent s u ∧ probe p e s = (false, u)) := by
  unfold probe
  rcases queryTrials_sent e p.addrPrimary p.probeTrials s with ⟨u, hu, h⟩ | ⟨u, hu, h⟩
  · rw [h]; exact .inl ⟨u, _, hu, .inl rfl, rfl⟩
  · rw [h]
    rcases queryTrials_sent e p.addrSecondary p.probeTrials u with ⟨v, hv, h⟩ | ⟨v, hv, h⟩
    · exact .inl ⟨v, _, hu.trans hv, .inr rfl, h⟩
    · exact .inr ⟨v, hu.trans hv, h⟩

/-- `DSP_PROBE` is refused while bound; else it binds a candidate and succeeds, or fails (R230, R231). -/
theorem dspProbe_cases (p : Params) (e : Env) (s : State) :
    s.boundValid = true ∧ dspProbe p e s = refuse e s ∨
    s.boundValid = false ∧ ((∃ u a, Sent s u ∧ (a = p.addrPrimary ∨ a = p.addrSecondary) ∧
        dspProbe p e s = succeed e { u with boundValid := true, boundAddr := a }) ∨
      ∃ u, Sent s u ∧ dspProbe p e s = fail e u) := by
  unfold dspProbe
  cases hb : s.boundValid with
  | true => exact .inl ⟨rfl, rfl⟩
  | false =>
    refine .inr ⟨rfl, ?_⟩
    rcases probe_cases p e s with ⟨u, a, hu, ha, h⟩ | ⟨u, hu, h⟩ <;> rw [h]
    · exact .inl ⟨u, a, hu, ha, rfl⟩
    · exact .inr ⟨u, hu, rfl⟩

/-- `DSP_INIT` is refused while bound; else it binds a candidate, clears the framebuffer and succeeds, or fails (R235, R239). -/
theorem dspInit_cases (p : Params) (e : Env) (s : State) :
    s.boundValid = true ∧ dspInit p e s = refuse e s ∨
    s.boundValid = false ∧ ((∃ u a, Sent s u ∧ (a = p.addrPrimary ∨ a = p.addrSecondary) ∧
        dspInit p e s = succeed e (fbClear p { u with boundValid := true, boundAddr := a })) ∨
      ∃ u, Sent s u ∧ dspInit p e s = fail e u) := by
  unfold dspInit
  cases hb : s.boundValid with
  | true => exact .inl ⟨rfl, rfl⟩
  | false =>
    refine .inr ⟨rfl, ?_⟩
    rcases probe_cases p e s with ⟨u, a, hu, ha, h⟩ | ⟨u, hu, h⟩ <;> rw [h]
    · generalize hv : ({ u with boundValid := true, boundAddr := a } : State) = v
      obtain ⟨ev1, now1, n1, b1, h1, l1⟩ := sendCmds_sent p e p.initSeq v
      obtain ⟨ev2, now2, n2, b2, h2, l2⟩ := flush_sent p e (fbClear p (sendCmds p e p.initSeq v))
      rw [fbClear_time, h1] at l2
      subst hv
      refine .inl ⟨{ u with trace := u.trace ++ (ev1 ++ ev2), time := now2, draws := n2, tbuf := b2 }, a,
        hu.trans ⟨_, _, _, _, rfl, le_trans l1 l2⟩, ha, ?_⟩
      dsimp only
      rw [h2, h1]
      simp [fbClear]
    · exact .inr ⟨u, hu, rfl⟩

/-- `DSP_WRITE_CHAR` is refused, or touches the framebuffer and `CUR_X` and succeeds (R200, R207). -/
theorem dspWriteChar_cases (p : Params) (e : Env) (s : State) :
    dspWriteChar p e s = refuse e s ∨ ∃ fb x, dspWriteChar p e s = succeed e { s with fb := fb, curX := x } := by
  unfold dspWriteChar
  split
  · exact .inl rfl
  · exact .inr ⟨_, _, by rw [paintGlyph_frame]; rfl⟩

/-- `DSP_FLUSH` is bus traffic, or refused (R240). -/
theorem dspFlush_cases (p : Params) (e : Env) (s : State) :
    (∃ u, Sent s u ∧ dspFlush p e s = succeed e u) ∨ dspFlush p e s = refuse e s := by
  unfold dspFlush
  split
  · exact .inl ⟨_, flush_sent p e s, rfl⟩
  · exact .inr rfl

theorem busDataTransfer_next {p : Params} {e : Env} {a : Addr7} {d : List Byte} {s t : State}
    (h : busDataTransfer p e a d s = .next t) : t = sendData p e a d s := by
  unfold busDataTransfer at h
  split at h
  · exact (Host.Outcome.next.inj h).symm
  · cases h

end Sys2Proof.Machine

/-! The frame of every instruction, by the table of R93, and the statements that follow from it. -/

namespace Sys2Proof.Machine

/-- `s` with what every command may write taken from `t`: the two flags, the sequencer, the time and the draw index. -/
def ended (s t : State) : State :=
  { s with stOk := t.stOk, stIll := t.stIll, seq := t.seq, time := t.time, draws := t.draws }

/-- `s` with what an instruction may write taken from `t` (R93); every row that uses the bus has `TBUF` among it. -/
def touched (s t : State) : Instr → State
  | .tmrStart | .tmrDelay => { ended s t with epoch := t.epoch, epochValid := t.epochValid }
  | .tmrElapsed => { ended s t with result := t.result }
  | .swsRead | .swFrame _ _ _ _ _ => { ended s t with
      swOe := t.swOe, epoch := t.epoch, epochValid := t.epochValid, raw := t.raw, swData := t.swData, swTemp := t.swTemp }
  | .rngMeasure => { ended s t with
      trig := t.trig, epoch := t.epoch, epochValid := t.epochValid, result := t.result }
  | .dspProbe => { ended s t with
      boundValid := t.boundValid, boundAddr := t.boundAddr, trace := t.trace, tbuf := t.tbuf }
  | .dspInit => { ended s t with
      boundValid := t.boundValid, boundAddr := t.boundAddr, trace := t.trace, tbuf := t.tbuf, fb := t.fb }
  | .dspClear | .dspSetPixel => { ended s t with fb := t.fb }
  | .dspSetCursor => { ended s t with curX := t.curX, curY := t.curY }
  | .dspWriteChar => { ended s t with fb := t.fb, curX := t.curX }
  | .dspWriteString _ _ _ => { ended s t with
      arg0 := t.arg0, arg1 := t.arg1, arg2 := t.arg2, fb := t.fb, curX := t.curX }
  | .reserved _ => ended s t
  | .dspFlush | .busCmdTransfer _ _ | .busDataTransfer _ _ | .busReadyQuery _ =>
    { ended s t with trace := t.trace, tbuf := t.tbuf }

theorem ReadEnded.frame {e : Env} {s t : State} (h : ReadEnded e s t) : t = touched s t .swsRead := by
  obtain ⟨raw, u, ⟨now, ep, n, rfl, _⟩, rfl | ⟨_, rfl⟩⟩ := h <;> rfl

theorem MeasureEnded.frame {e : Env} {s t : State} (h : MeasureEnded e s t) : t = touched s t .rngMeasure := by
  obtain ⟨r, u, ⟨now, ep, n, rfl, _⟩, rfl⟩ := h; rfl

theorem Sent.frame {s t : State} (h : Sent s t) : t = touched s t .dspFlush := by
  obtain ⟨events, now, n, b, rfl, _⟩ := h; rfl

theorem writeCharLine_frame (p : Params) (e : Env) (codes : List Byte) (font color : Word) (s : State) (ch : Byte) :
    writeCharLine p e font color s ch =
      touched s (writeCharLine p e font color s ch) (.dspWriteString codes font color) := by
  unfold writeCharLine
  rcases dspWriteChar_cases p e { s with arg0 := ch.setWidth 16, arg1 := font, arg2 := color } with h | ⟨fb, x, h⟩ <;>
    rw [h] <;> rfl

theorem touched_trans {s t u : State} {i : Instr} (h1 : t = touched s t i) (h2 : u = touched t u i) : u = touched s u i := by
  rw [h1] at h2
  exact h2.trans (by cases i <;> rfl)

theorem dspWriteString_frame (p : Params) (e : Env) (codes : List Byte) (font color : Word) (s : State) :
    dspWriteString p e codes font color s =
      touched s (dspWriteString p e codes font color s) (.dspWriteString codes font color) := by
  unfold dspWriteString
  have lines : ∀ (cs : List Byte) (s : State), cs.foldl (writeCharLine p e font color) s =
      touched s (cs.foldl (writeCharLine p e font color) s) (.dspWriteString codes font color) := by
    intro cs
    induction cs with
    | nil => intro s; rfl
    | cons c cs ih => intro s; exact touched_trans (writeCharLine_frame ..) (ih _)
  exact lines codes s

/-- No instruction writes anything but what R93 lists for it. -/
theorem execFor_frame {p : Params} {e : Env} {i : Instr} {s t : State} (h : execFor p e i s = .next t) :
    t = touched s t i := by
  cases i
  case busDataTransfer a d => rw [busDataTransfer_next h]; exact (sendData_sent ..).frame
  all_goals obtain rfl := Host.Outcome.next.inj h
  case swsRead =>
    unfold swsRead
    split
    · exact (swsReadCmd_ended ..).frame
    · rfl
  case swFrame => exact (swFrame_ended ..).frame
  case rngMeasure =>
    rcases rngMeasure_cases p e s with h | h
    · exact h.frame
    · rw [h]; rfl
  case dspProbe =>
    rcases dspProbe_cases p e s with ⟨_, h⟩ | ⟨_, ⟨u, a, ⟨_, _, _, _, rfl, _⟩, _, h⟩ | ⟨u, ⟨_, _, _, _, rfl, _⟩, h⟩⟩ <;>
      rw [h] <;> rfl
  case dspInit =>
    rcases dspInit_cases p e s with ⟨_, h⟩ | ⟨_, ⟨u, a, ⟨_, _, _, _, rfl, _⟩, _, h⟩ | ⟨u, ⟨_, _, _, _, rfl, _⟩, h⟩⟩ <;>
      rw [h] <;> rfl
  case dspSetPixel => rw [dspSetPixel, setPixel_frame]; rfl
  case dspWriteChar => rcases dspWriteChar_cases p e s with h | ⟨fb, x, h⟩ <;> rw [h] <;> rfl
  case dspWriteString => exact dspWriteString_frame ..
  case dspFlush => rcases dspFlush_cases p e s with ⟨u, ⟨_, _, _, _, rfl, _⟩, h⟩ | h <;> rw [h] <;> rfl
  all_goals rfl

theorem exec_frame {i : Instr} {s t : State} (h : exec i s = .next t) : t = touched s t i :=
  execFor_frame ((exec_eq_execFor i s).symm.trans h)

/-- Settles O44: `RESULT` is in the frame of no other instruction, and no host write reaches it. -/
theorem onlyTwoCommandsWriteResult : Obligations.OnlyTwoCommandsWriteResult := by
  refine ⟨?_, ?_⟩
  · intro i s t h hne
    have frame := congrArg State.result (exec_frame h)
    cases i
    case tmrElapsed => exact .inl rfl
    case rngMeasure => exact .inr rfl
    all_goals exact absurd frame hne
  · intro index v s
    unfold regWrite
    split <;> rfl

/-- Settles O45: the operand registers are in the frame of no instruction but the string line. -/
theorem commandsNeverWriteOperands : Obligations.CommandsNeverWriteOperands := by
  intro i s t hi h
  have frame := exec_frame h
  have h0 := congrArg State.arg0 frame
  have h1 := congrArg State.arg1 frame
  have h2 := congrArg State.arg2 frame
  cases i
  case dspWriteString codes font color => exact absurd rfl (hi codes font color)
  all_goals exact ⟨h0, h1, h2⟩

/-- Only the framebuffer commands and `DSP_INIT` have the framebuffer in their frame (R62, R93). -/
theorem fb_frame {i : Instr} {s t : State} (h : exec i s = .next t) (hne : t.fb ≠ s.fb) :
    i = .dspClear ∨ i = .dspSetPixel ∨ i = .dspWriteChar ∨ i = .dspInit ∨
      ∃ codes font color, i = .dspWriteString codes font color := by
  have frame := congrArg State.fb (exec_frame h)
  cases i
  case dspClear | dspSetPixel | dspWriteChar | dspInit | dspWriteString => simp
  all_goals exact absurd frame hne

/-- Only `DSP_SET_CURSOR` and the character commands have the cursor in their frame (R34, R93). -/
theorem cursor_frame {i : Instr} {s t : State} (h : exec i s = .next t) (hne : t.curX ≠ s.curX ∨ t.curY ≠ s.curY) :
    i = .dspSetCursor ∨ i = .dspWriteChar ∨ ∃ codes font color, i = .dspWriteString codes font color := by
  have framex := congrArg State.curX (exec_frame h)
  have framey := congrArg State.curY (exec_frame h)
  cases i
  case dspSetCursor | dspWriteChar | dspWriteString => simp
  all_goals exact absurd hne (not_or.mpr ⟨not_not.mpr framex, not_not.mpr framey⟩)

/-- Only `SWS_READ` and a received frame have the sensor registers in their frame (R32, R33, R93). -/
theorem reading_frame {i : Instr} {s t : State} (h : exec i s = .next t)
    (hne : t.swData ≠ s.swData ∨ t.swTemp ≠ s.swTemp) : i = .swsRead ∨ ∃ h f x g k, i = .swFrame h f x g k := by
  have framed := congrArg State.swData (exec_frame h)
  have framet := congrArg State.swTemp (exec_frame h)
  cases i
  case swsRead | swFrame => simp
  all_goals exact absurd hne (not_or.mpr ⟨not_not.mpr framed, not_not.mpr framet⟩)

/-- Settles O46, unit by unit. -/
theorem eachUnitWritesOnlyItsOwn : Obligations.EachUnitWritesOnlyItsOwn :=
  fun _ _ _ h => ⟨fb_frame h, cursor_frame h, reading_frame h⟩

/-- Settles O48: the epoch and its flag are in the frame of the timed commands only. -/
theorem displayCommandsKeepTheEpoch : Obligations.DisplayCommandsKeepTheEpoch := by
  intro i s t h hne
  have framee := congrArg State.epoch (exec_frame h)
  have framev := congrArg State.epochValid (exec_frame h)
  cases i
  case tmrStart | tmrDelay | swsRead | rngMeasure | swFrame => simp
  all_goals exact absurd hne (not_or.mpr ⟨not_not.mpr framee, not_not.mpr framev⟩)

end Sys2Proof.Machine

/-! What every step keeps whatever the phase: time and trace only grow, a consistent reading and exclusive flags stay so. -/

namespace Sys2Proof.Machine

open Sys2Proof.Safety

/-- From `s` to `t` time and trace have only grown, and a consistent reading and exclusive status flags have stayed so. -/
structure Grows (s t : State) : Prop where
  time : s.time ≤ t.time
  trace : s.trace <+: t.trace
  reading : ReadingInv s → ReadingInv t
  status : StatusInv s → StatusInv t

namespace Grows

variable {p : Params} {e : Env} {s t u : State}

theorem refl (s : State) : Grows s s :=
  ⟨le_refl _, List.prefix_refl _, id, id⟩

theorem trans (h1 : Grows s t) (h2 : Grows t u) : Grows s u :=
  ⟨le_trans h1.time h2.time, h1.trace.trans h2.trace, h2.reading ∘ h1.reading, h2.status ∘ h1.status⟩

/-- The rest of the state does not matter. -/
theorem same (h : Grows s t)
    (hu : (u.time, u.trace, u.swData, u.swTemp, u.stOk, u.stIll) = (t.time, t.trace, t.swData, t.swTemp, t.stOk, t.stIll)) :
    Grows s u := by
  simp only [Prod.mk.injEq] at hu
  obtain ⟨htime, htrace, hdata, htemp, hok, hill⟩ := hu
  exact ⟨htime ▸ h.time, htrace ▸ h.trace, by simpa only [ReadingInv, hdata, htemp] using h.reading,
    by simpa only [StatusInv, hok, hill] using h.status⟩

theorem of_same (h : Grows t u)
    (hs : (t.time, t.trace, t.swData, t.swTemp, t.stOk, t.stIll) = (s.time, s.trace, s.swData, s.swTemp, s.stOk, s.stIll)) :
    Grows s u :=
  ((refl s).same hs).trans h

theorem later (h : Later s t) : Grows s t := by
  obtain ⟨now, ep, n, rfl, l⟩ := h
  exact ⟨l, List.prefix_refl _, id, id⟩

theorem sent (h : Sent s t) : Grows s t := by
  obtain ⟨events, now, n, b, rfl, l⟩ := h
  exact ⟨l, List.prefix_append _ _, id, id⟩

/-- The end of a command that does not set both flags. -/
theorem finish {ok ill : Bool} (h : Grows s t) (hflags : (ok && ill) = false) : Grows s (finish e ok ill t) :=
  ⟨le_trans h.time (Nat.le_add_right ..), h.trace, h.reading, fun _ => hflags⟩

theorem succeed (h : Grows s t) : Grows s (succeed e t) := h.finish rfl
theorem fail (h : Grows s t) : Grows s (fail e t) := h.finish rfl
theorem refuse (h : Grows s t) : Grows s (refuse e t) := h.finish rfl

/-- Bytes that pass the checksum are committed as a consistent reading (R150). -/
theorem commitReading (h : Grows s t) (hsum : checksumHolds t.raw = true) : Grows s (commitReading t) :=
  ⟨h.time, h.trace, fun _ => ⟨hsum, rfl⟩, h.status⟩

theorem swsCheck (h : Grows s t) : Grows s (swsCheck e t) := by
  rcases swsCheck_cases e t with heq | ⟨hsum, heq⟩ <;> rw [heq]
  · exact h.fail
  · exact (h.commitReading hsum).succeed

theorem readEnded (h : ReadEnded e s t) : Grows s t := by
  obtain ⟨raw, u, l, rfl | ⟨hsum, rfl⟩⟩ := h
  · exact .fail (.of_same (later l) rfl)
  · have hraw : u.raw = raw := by obtain ⟨_, _, _, rfl, _⟩ := l; rfl
    exact .succeed (.commitReading (.of_same (later l) rfl) (hraw ▸ hsum))

theorem measureEnded (h : MeasureEnded e s t) : Grows s t := by
  obtain ⟨r, u, l, rfl⟩ := h
  exact .succeed (.same (.of_same (later l) rfl) rfl)

theorem dspProbe : Grows s (dspProbe p e s) := by
  rcases dspProbe_cases p e s with ⟨_, h⟩ | ⟨_, ⟨u, a, hu, _, h⟩ | ⟨u, hu, h⟩⟩ <;> rw [h]
  · exact (refl s).refuse
  · exact .succeed (.same (sent hu) rfl)
  · exact (sent hu).fail

theorem dspInit : Grows s (dspInit p e s) := by
  rcases dspInit_cases p e s with ⟨_, h⟩ | ⟨_, ⟨u, a, hu, _, h⟩ | ⟨u, hu, h⟩⟩ <;> rw [h]
  · exact (refl s).refuse
  · exact .succeed (.same (sent hu) rfl)
  · exact (sent hu).fail

theorem setPixel {x y : Nat} {k : Bool} : Grows s (setPixel p x y k s) := by
  rw [setPixel_frame]; exact (refl s).same rfl

theorem dspWriteChar : Grows s (dspWriteChar p e s) := by
  rcases dspWriteChar_cases p e s with h | ⟨fb, x, h⟩ <;> rw [h]
  · exact (refl s).refuse
  · exact .succeed (.same (refl s) rfl)

theorem dspWriteString (codes : List Byte) (font color : Word) : Grows s (dspWriteString p e codes font color s) := by
  unfold Machine.dspWriteString
  induction codes generalizing s with
  | nil => exact refl s
  | cons c cs ih =>
    have line : Grows s (writeCharLine p e font color s c) := .of_same dspWriteChar rfl
    exact line.trans ih

theorem dspFlush : Grows s (dspFlush p e s) := by
  rcases dspFlush_cases p e s with ⟨u, hu, h⟩ | h <;> rw [h]
  · exact (sent hu).succeed
  · exact (refl s).refuse

theorem rngMeasure : Grows s (rngMeasure p e s) := by
  rcases rngMeasure_cases p e s with h | h
  · exact measureEnded h
  · rw [h]; exact (refl s).refuse

theorem swsRead : Grows s (swsRead p e s) := by
  unfold Machine.swsRead
  split
  · exact readEnded (swsReadCmd_ended ..)
  · exact (refl s).same rfl

theorem delay (n : Nat) : Grows s (delay p e n s) := later (.delay ..)

theorem tmrDelay : Grows s (tmrDelayCmd p e s) := .succeed (.same (delay _) rfl)

end Grows

/-- Every instruction only grows time and trace. -/
theorem execFor_grows {p : Params} {e : Env} {i : Instr} {s t : State} (h : execFor p e i s = .next t) : Grows s t := by
  cases i
  case busDataTransfer a d => rw [busDataTransfer_next h]; exact .sent (sendData_sent ..)
  all_goals obtain rfl := Host.Outcome.next.inj h
  case tmrStart | tmrElapsed | dspClear | dspSetCursor => exact .succeed (.same (.refl s) rfl)
  case tmrDelay => exact .tmrDelay
  case swsRead => exact .swsRead
  case rngMeasure => exact .rngMeasure
  case dspProbe => exact .dspProbe
  case dspInit => exact .dspInit
  case dspSetPixel => exact .succeed .setPixel
  case dspWriteChar => exact .dspWriteChar
  case dspFlush => exact .dspFlush
  case dspWriteString => exact .dspWriteString ..
  case reserved => exact .refuse (.refl s)
  case busCmdTransfer => exact .sent (busWrite_sent ..)
  case busReadyQuery => exact .sent (busReady_sent ..)
  case swFrame => exact .readEnded (swFrame_ended ..)

/-! A row of the sequencer. A property of what a timed phase can lead to is one of each of its ends. -/

section phases

variable {P : State → Prop} {p : Params} {e : Env} {s : State}

theorem delayPhase_of {n : Nat} {done : State → State} (wait : P (waitTick s)) (leave : P (done (overshoot p e s))) :
    P (delayPhase p e n done s) := by
  unfold delayPhase; split <;> assumption

theorem waitPhase_of {src : Nat → Bool} {v bounded : Bool} {budget : Nat} {met timeout : State → State}
    (wait : P (waitTick s)) (seen : P (met (latency p e s))) (timedOut : P (timeout s)) :
    P (waitPhase p e src v bounded budget met timeout s) := by
  unfold waitPhase
  split
  · exact seen
  · split
    · exact timedOut
    · exact wait

theorem probeRow_of {init second : Bool} {n : Nat} {s : State}
    (bind : ∀ a u, a = p.addrPrimary ∨ a = p.addrSecondary → Sent s u →
      P (if init then enterConfig p 0 { u with boundValid := true, boundAddr := a }
        else succeed e { u with boundValid := true, boundAddr := a }))
    (next : ∀ u, Sent s u → P (probeNext p e init second n u)) : P (probeRow p e init second n s) := by
  unfold probeRow
  dsimp only
  rw [busReady_eq]
  generalize e.ack s.draws (if second then p.addrSecondary else p.addrPrimary) = ack
  cases ack with
  | true => exact bind _ _ (by cases second <;> simp) ⟨[_], _, _, s.tbuf, rfl, Nat.le_add_right ..⟩
  | false => exact next _ ⟨[_], _, _, s.tbuf, rfl, Nat.le_add_right ..⟩

end phases

namespace Grows

variable {p : Params} {e : Env} {s t : State}

theorem waitTick (s : State) : Grows s (waitTick s) := later ⟨_, _, _, rfl, Nat.le_succ _⟩
theorem overshoot : Grows s (overshoot p e s) := later ⟨_, _, _, rfl, Nat.le_add_right ..⟩
theorem latency : Grows s (latency p e s) := later ⟨_, _, _, rfl, Nat.le_add_right ..⟩

theorem enterChunk (h : Grows s t) (n : Nat) : Grows s (enterChunk p e n t) := by
  rcases enterChunk_cases p e n t with ⟨_, heq⟩ | ⟨_, heq⟩ <;> rw [heq]
  · exact .same h rfl
  · exact h.succeed

theorem enterWindow (h : Grows s t) (q : Nat) : Grows s (enterWindow p e q t) := by
  rcases enterWindow_cases p e q t with ⟨_, heq⟩ | ⟨_, heq⟩ <;> rw [heq]
  · exact .same h rfl
  · exact h.enterChunk 0

theorem enterConfig (h : Grows s t) (q : Nat) : Grows s (enterConfig p q t) := by
  rcases enterConfig_cases p q t with ⟨_, heq⟩ | ⟨_, heq⟩ <;> rw [heq] <;> exact .same h rfl

theorem enterGlyph (h : Grows s t) (r c : Nat) : Grows s (enterGlyph p e r c t) := by
  rcases enterGlyph_cases p e r c t with ⟨_, _, _, _, heq⟩ | heq <;> rw [heq]
  · exact .same h rfl
  · exact .succeed (.same h rfl)

theorem probeNext (h : Grows s t) (init second : Bool) (n : Nat) : Grows s (probeNext p e init second n t) := by
  unfold Machine.probeNext
  split
  · exact .same h rfl
  · split
    · exact h.fail
    · exact .same h rfl

theorem byteEnds (k : Nat) (b : Byte) : Grows s (byteEnds p k b s) := by
  unfold Machine.byteEnds
  split <;> exact .same (refl s) rfl

theorem fbClear : Grows s (fbClear p s) := .same (refl s) rfl

end Grows

/-- Every row of the sequencer only grows time and trace. -/
theorem seqStep_grows (p : Params) (e : Env) (s : State) : Grows s (seqStep p e s) := by
  unfold seqStep
  cases s.seq with dsimp only
  | idle => exact .refl s
  | tmrWait => exact delayPhase_of (.waitTick s) (.succeed (.same .overshoot rfl))
  | swStartLow | swStartHigh | swBitDelay | rngSettle | rngPulse =>
    exact delayPhase_of (.waitTick s) (.same .overshoot rfl)
  | swRespLow1 | swRespHigh | swRespLow2 => exact waitPhase_of (.waitTick s) (.same .latency rfl) (.fail (.refl s))
  | swBitWaitHigh k i b => exact waitPhase_of (.waitTick s) (.same .latency rfl) (.byteEnds ..)
  | swBitSample k i b => exact .same (.refl s) rfl
  | swBitWaitLow k i b =>
    refine waitPhase_of (.waitTick s) ?_ (.byteEnds ..)
    split
    · exact .same .latency rfl
    · exact Grows.latency.trans (.byteEnds ..)
  | swCheck => exact (Grows.refl s).swsCheck
  | rngWaitRise | rngWaitFall => exact waitPhase_of (.waitTick s) (.same .latency rfl) (.succeed (.same (.refl s) rfl))
  | rngConvert d => exact .succeed (.same (.refl s) rfl)
  | dspProbe init second n =>
    refine probeRow_of (fun a u _ hu => ?_) (fun u hu => (Grows.sent hu).probeNext ..)
    split
    · refine Grows.enterConfig ?_ 0
      exact .same (.sent hu) rfl
    · exact .succeed (.same (.sent hu) rfl)
  | dspConfig q => exact (Grows.sent (sendCmds_sent ..)).enterConfig _
  | dspClearing init =>
    split
    · exact Grows.fbClear.enterWindow 0
    · exact .succeed .fbClear
  | dspWindow q => exact (Grows.sent (sendCmds_sent ..)).enterWindow _
  | dspChunk n => exact (Grows.sent (sendChunk_sent ..)).enterChunk _
  | dspGlyph r c => exact Grows.setPixel.enterGlyph ..

/-- The beginning of every command only grows time and trace. -/
theorem seqBegin_grows (p : Params) (e : Env) (i : Instr) (s : State) : Grows s (seqBegin p e i s) := by
  cases i with
  | tmrStart | tmrElapsed | dspSetCursor => exact .succeed (.same (.refl s) rfl)
  | tmrDelay | swsRead | dspClear => exact .same (.refl s) rfl
  | rngMeasure =>
    unfold seqBegin; dsimp only; split
    · exact .same (.refl s) rfl
    · exact .refuse (.refl s)
  | dspProbe | dspInit =>
    unfold seqBegin; dsimp only; split
    · exact .refuse (.refl s)
    · exact .same (.refl s) rfl
  | dspSetPixel => exact .succeed .setPixel
  | dspWriteChar =>
    unfold seqBegin; dsimp only; split
    · exact .refuse (.refl s)
    · exact (Grows.refl s).enterGlyph 0 0
  | dspFlush =>
    unfold seqBegin; dsimp only; split
    · exact (Grows.refl s).enterWindow 0
    · exact .refuse (.refl s)
  | reserved op => exact .refuse (.refl s)
  | dspWriteString | busCmdTransfer | busDataTransfer | busReadyQuery | swFrame => exact .refl s

theorem regWrite_grows (index : BitVec 4) (v : Word) (s : State) : Grows s (regWrite index v s) := by
  unfold regWrite
  split <;> exact .same (.refl s) rfl

/-- A reset keeps time and trace, and the reading and the flags of the reset state are consistent (R38, R50). -/
theorem hardReset_grows (p : Params) (e : Env) (s : State) : Grows s (hardReset p e s) :=
  ⟨le_refl _, List.prefix_refl _, fun _ => ⟨rfl, rfl⟩, fun _ => rfl⟩

theorem step_grows {s t : State} (h : step s = .next t) : Grows s t := by
  rcases step_cases h with ⟨i, rest, _, _, h⟩ | ⟨index, v, rest, _, rfl⟩ | ⟨index, rest, _, rfl⟩ | ⟨v, rest, _, rfl⟩ |
    ⟨rest, _, rfl⟩ | ⟨rest, _, rfl⟩ | ⟨rest, _, rfl⟩
  · exact .of_same (execFor_grows ((exec_eq_execFor ..).symm.trans h)) rfl
  · exact .of_same (regWrite_grows ..) rfl
  · exact .of_same (.same (.refl _) rfl) rfl
  · exact .of_same (seqBegin_grows ..) rfl
  · exact .of_same (seqStep_grows ..) rfl
  · exact .of_same (.later ⟨_, _, _, rfl, Nat.le_add_right ..⟩) rfl
  · exact .of_same (hardReset_grows ..) rfl

/-- Settles O50: every instruction, row and access only grows time and trace, and a reset keeps them. -/
theorem timeAndTraceOnlyGrow : Obligations.TimeAndTraceOnlyGrow :=
  fun _ _ h => ⟨(step_grows h).time, (step_grows h).trace⟩

/-- Settles O53: the sensor registers change only to bytes that pass the checksum, or to the zeros of a reset. -/
theorem stepKeepsTheReading : Obligations.StepKeepsTheReading :=
  fun _ _ hs h => (step_grows h).reading hs

end Sys2Proof.Machine

/-! The binding and the phases: what a row, the beginning of a command and an instruction do to `BOUND_VALID`, `BOUND_ADDR`
and `SEQ` (R28, R35, R104, R224). -/

namespace Sys2Proof.Machine

open Sys2Proof.Safety

theorem Sent.boundValid {s t : State} (h : Sent s t) : t.boundValid = s.boundValid := by
  obtain ⟨_, _, _, _, rfl, _⟩ := h; rfl

theorem Sent.boundAddr {s t : State} (h : Sent s t) : t.boundAddr = s.boundAddr := by
  obtain ⟨_, _, _, _, rfl, _⟩ := h; rfl

/-- `t` has the binding of `s` and is in a phase that exists and queries nothing; it is one that writes on the bus only
where `mayWrite` says so. -/
structure Enters (p : Params) (mayWrite : Bool) (s t : State) : Prop where
  valid : t.boundValid = s.boundValid
  addr : t.boundAddr = s.boundAddr
  inRange : phaseInRange p s.seq = true → phaseInRange p t.seq = true
  queriesNot : probing t.seq = false
  writes : sending t.seq = true → mayWrite = true

namespace Enters

variable {p : Params} {e : Env} {s t u : State} {mayWrite : Bool}

/-- A row that waits one tick stays in its phase. -/
theorem tick (hq : probing s.seq = false) : Enters p (sending s.seq) s (waitTick s) :=
  ⟨rfl, rfl, id, hq, id⟩

/-- Between commands no phase is left to enter. -/
theorem idle (hs : t.seq = .idle := by rfl)
    (hv : t.boundValid = s.boundValid := by rfl) (ha : t.boundAddr = s.boundAddr := by rfl) :
    Enters p mayWrite s t := by
  refine ⟨hv, ha, ?_, ?_, ?_⟩ <;> simp [hs, phaseInRange, probing, sending]

theorem enterChunk {n : Nat} (hv : t.boundValid = s.boundValid := by rfl)
    (ha : t.boundAddr = s.boundAddr := by rfl) :
    Enters p true s (enterChunk p e n t) := by
  rcases enterChunk_cases p e n t with ⟨hn, h⟩ | ⟨_, h⟩ <;> rw [h]
  · exact ⟨hv, ha, fun _ => decide_eq_true hn, rfl, fun _ => rfl⟩
  · exact idle rfl hv ha

theorem enterWindow {q : Nat} (hv : t.boundValid = s.boundValid := by rfl)
    (ha : t.boundAddr = s.boundAddr := by rfl) :
    Enters p true s (enterWindow p e q t) := by
  rcases enterWindow_cases p e q t with ⟨hn, h⟩ | ⟨_, h⟩ <;> rw [h]
  · exact ⟨hv, ha, fun _ => decide_eq_true hn, rfl, fun _ => rfl⟩
  · exact enterChunk hv ha

theorem enterConfig {q : Nat} (hv : t.boundValid = s.boundValid := by rfl)
    (ha : t.boundAddr = s.boundAddr := by rfl) :
    Enters p true s (enterConfig p q t) := by
  rcases enterConfig_cases p q t with ⟨hn, h⟩ | ⟨_, h⟩ <;> rw [h]
  · exact ⟨hv, ha, fun _ => decide_eq_true hn, rfl, fun _ => rfl⟩
  · exact ⟨hv, ha, fun _ => rfl, rfl, fun _ => rfl⟩

theorem enterGlyph {r c : Nat} (hv : t.boundValid = s.boundValid := by rfl)
    (ha : t.boundAddr = s.boundAddr := by rfl) :
    Enters p mayWrite s (enterGlyph p e r c t) := by
  rcases enterGlyph_cases p e r c t with ⟨r', c', hr, hc, h⟩ | h <;> rw [h]
  · exact ⟨hv, ha, fun _ => by simp [phaseInRange, hr, hc], rfl, nofun⟩
  · exact idle rfl hv ha

/-- After a byte the next one is read, or the checksum; `hi` bounds the bit just done. -/
theorem byteEnds {k i : Nat} {b : Byte} (hi : phaseInRange p s.seq = true → i < p.swNbits)
    (hv : t.boundValid = s.boundValid := by rfl) (ha : t.boundAddr = s.boundAddr := by rfl) : Enters p mayWrite s (byteEnds p k b t) := by
  unfold Machine.byteEnds
  split
  · next hk => exact ⟨hv, ha, fun hr => by simp [phaseInRange, hk]; have := hi hr; omega, rfl, nofun⟩
  · exact ⟨hv, ha, fun _ => rfl, rfl, nofun⟩

theorem swsCheck (s : State) : Enters p mayWrite s (swsCheck e s) := by
  rcases swsCheck_cases e s with h | ⟨_, h⟩ <;> rw [h] <;> exact idle

end Enters

/-- A row of any phase but the queries keeps the binding, starts no query, and writes on the bus only if the phase does. -/
theorem seqStep_enters {p : Params} {s : State} (e : Env) (hbytes : 0 < p.swNbytes) (hbits : 0 < p.swNbits)
    (hq : probing s.seq = false) : Enters p (sending s.seq) s (seqStep p e s) := by
  have tick := Enters.tick (p := p) hq
  unfold seqStep
  cases hseq : s.seq with dsimp only
  | idle => exact .idle hseq
  | tmrWait => exact delayPhase_of (hseq ▸ tick) .idle
  | swStartLow | swStartHigh | rngSettle | rngPulse =>
    exact delayPhase_of (hseq ▸ tick) ⟨rfl, rfl, fun _ => rfl, rfl, nofun⟩
  | swRespLow1 | swRespHigh | rngWaitRise | rngWaitFall =>
    exact waitPhase_of (hseq ▸ tick) ⟨rfl, rfl, fun _ => rfl, rfl, nofun⟩ .idle
  | swRespLow2 =>
    exact waitPhase_of (hseq ▸ tick) ⟨rfl, rfl, fun _ => by simp [phaseInRange, hbytes, hbits], rfl, nofun⟩ .idle
  | swBitWaitHigh k i b =>
    have hi : phaseInRange p s.seq = true → i < p.swNbits := by rw [hseq]; simp [phaseInRange]
    exact waitPhase_of (hseq ▸ tick) ⟨rfl, rfl, by rw [hseq]; exact id, rfl, nofun⟩ (.byteEnds hi)
  | swBitDelay k i b => exact delayPhase_of (hseq ▸ tick) ⟨rfl, rfl, by rw [hseq]; exact id, rfl, nofun⟩
  | swBitSample k i b => exact ⟨rfl, rfl, by rw [hseq]; exact id, rfl, nofun⟩
  | swBitWaitLow k i b =>
    have hi : phaseInRange p s.seq = true → k < p.swNbytes ∧ i < p.swNbits := by rw [hseq]; simp [phaseInRange]
    refine waitPhase_of (hseq ▸ tick) ?_ (.byteEnds fun hr => (hi hr).2)
    split
    · next hnext => exact ⟨rfl, rfl, fun hr => by simp [phaseInRange, hi hr, hnext], rfl, nofun⟩
    · exact .byteEnds fun hr => (hi hr).2
  | swCheck => exact .swsCheck s
  | rngConvert d => exact .idle
  | dspProbe init second n => rw [hseq] at hq; exact absurd hq nofun
  | dspConfig q => exact .enterConfig (sendCmds_sent ..).boundValid (sendCmds_sent ..).boundAddr
  | dspClearing init =>
    cases init with
    | true => exact .enterWindow
    | false => exact .idle
  | dspWindow q => exact .enterWindow (sendCmds_sent ..).boundValid (sendCmds_sent ..).boundAddr
  | dspChunk n => exact .enterChunk
  | dspGlyph r c => rw [paintPixel, setPixel_frame]; exact .enterGlyph

/-- A successful query of a candidate has bound it. -/
def Binds (p : Params) (t : State) : Prop :=
  t.boundValid = true ∧ (t.boundAddr = p.addrPrimary ∨ t.boundAddr = p.addrSecondary)

/-- From `s` to `t` the binding has not changed, or a candidate has been bound, which only a query does. -/
def BindingStep (p : Params) (query : Prop) (s t : State) : Prop :=
  t.boundValid = s.boundValid ∧ t.boundAddr = s.boundAddr ∨ query ∧ Binds p t

theorem BindingStep.bindingInv {p : Params} {query : Prop} {s t : State} (h : BindingStep p query s t)
    (hs : BindingInv p s) : BindingInv p t := by
  rcases h with ⟨hv, ha⟩ | ⟨_, hv, ha⟩
  · simpa only [BindingInv, hv, ha] using hs
  · exact ⟨fun h => absurd (h.symm.trans hv) nofun, fun _ => ha⟩

/-- A row of the queries: the next trial, failure, or a candidate bound (R230, R231). -/
theorem probeRow_binding {p : Params} {e : Env} {init second : Bool} {n : Nat} {s : State} :
    BindingStep p True s (probeRow p e init second n s) := by
  refine probeRow_of (fun a u ha hu => .inr ⟨trivial, ?_⟩) (fun u hu => .inl ?_)
  · split
    · rcases enterConfig_cases p 0 { u with boundValid := true, boundAddr := a } with ⟨_, h⟩ | ⟨_, h⟩ <;> rw [h] <;>
        exact ⟨rfl, ha⟩
    · exact ⟨rfl, ha⟩
  · unfold probeNext
    split
    · exact ⟨hu.boundValid, hu.boundAddr⟩
    · split <;> exact ⟨hu.boundValid, hu.boundAddr⟩

theorem probeRow_sequencerInv {p : Params} {e : Env} {init second : Bool} {n : Nat} {s : State} (htrials : 0 < p.probeTrials)
    (hs : s.boundValid = false) : SequencerInv p (probeRow p e init second n s) := by
  refine probeRow_of (fun a u _ hu => ?_) (fun u hu => ?_)
  · split
    · rcases enterConfig_cases p 0 { u with boundValid := true, boundAddr := a } with ⟨hq, h⟩ | ⟨_, h⟩ <;> rw [h]
      · exact ⟨decide_eq_true hq, fun _ => rfl, fun _ => rfl⟩
      · exact ⟨rfl, fun _ => rfl, fun _ => rfl⟩
    · exact ⟨rfl, fun _ => rfl, nofun⟩
  · have unbound : u.boundValid = false := hu.boundValid.trans hs
    unfold probeNext
    split
    · next hn => exact ⟨decide_eq_true hn, fun h => absurd (unbound.symm.trans h) nofun, nofun⟩
    · split
      · exact ⟨rfl, fun _ => rfl, nofun⟩
      · exact ⟨decide_eq_true htrials, fun h => absurd (unbound.symm.trans h) nofun, nofun⟩

/-- A phase in which addresses are queried is one of `DSP_PROBE_P`. -/
theorem eq_dspProbe_of_probing {ph : Seq} (h : probing ph = true) : ∃ init second n, ph = .dspProbe init second n := by
  cases ph with
  | dspProbe init second n => exact ⟨init, second, n, rfl⟩
  | _ => exact absurd h nofun

theorem sequencerInv_of_idle {p : Params} {s : State} (h : s.seq = .idle) : SequencerInv p s := by
  simp [SequencerInv, h, phaseInRange, probing, sending]

theorem Enters.sequencerInv {p : Params} {mayWrite : Bool} {s t : State} (h : Enters p mayWrite s t)
    (hr : phaseInRange p s.seq = true) (hs : mayWrite = true → s.boundValid = true) : SequencerInv p t :=
  ⟨h.inRange hr, fun _ => h.queriesNot, fun ht => h.valid.trans (hs (h.writes ht))⟩

/-! ## Rows -/

theorem seqStep_of_probing {p : Params} {e : Env} {s : State} (h : probing s.seq = true) :
    ∃ init second n, seqStep p e s = probeRow p e init second n s := by
  obtain ⟨init, second, n, hseq⟩ := eq_dspProbe_of_probing h
  exact ⟨init, second, n, by unfold seqStep; rw [hseq]⟩

/-- Only a row of the queries binds (R35). -/
theorem seqStep_binding {p : Params} (e : Env) (hbytes : 0 < p.swNbytes) (hbits : 0 < p.swNbits) (s : State) :
    BindingStep p (probing s.seq = true) s (seqStep p e s) := by
  cases hq : probing s.seq with
  | true =>
    obtain ⟨_, _, _, hrow⟩ := seqStep_of_probing (p := p) (e := e) hq
    rw [hrow]
    exact probeRow_binding.imp_right fun h => ⟨rfl, h.2⟩
  | false =>
    have row := seqStep_enters e hbytes hbits hq
    exact .inl ⟨row.valid, row.addr⟩

theorem seqStep_sequencerInv {p : Params} (e : Env) (hbytes : 0 < p.swNbytes) (hbits : 0 < p.swNbits)
    (htrials : 0 < p.probeTrials) {s : State} (hs : SequencerInv p s) : SequencerInv p (seqStep p e s) := by
  obtain ⟨hr, hquery, hsend⟩ := hs
  cases hq : probing s.seq with
  | true =>
    have unbound : s.boundValid = false := by
      cases hb : s.boundValid with
      | true => exact absurd (hq.symm.trans (hquery hb)) nofun
      | false => rfl
    obtain ⟨_, _, _, hrow⟩ := seqStep_of_probing (p := p) (e := e) hq
    rw [hrow]
    exact probeRow_sequencerInv htrials unbound
  | false => exact (seqStep_enters e hbytes hbits hq).sequencerInv hr hsend

/-! ## The beginning of a command -/

/-- A command that begins enters a phase without queries, writing only while bound, or, while unbound, the first query
(R104, R230). -/
theorem seqBegin_cases (p : Params) (e : Env) (i : Instr) {s : State} (hs : s.seq = .idle) :
    Enters p s.boundValid s (seqBegin p e i s) ∨
    s.boundValid = false ∧ ∃ init, seqBegin p e i s = { s with seq := .dspProbe init false 0 } := by
  cases i with
  | tmrStart | tmrElapsed | dspSetCursor | reserved => exact .inl .idle
  | tmrDelay | swsRead | dspClear => exact .inl ⟨rfl, rfl, fun _ => rfl, rfl, nofun⟩
  | rngMeasure =>
    refine .inl ?_
    unfold seqBegin; dsimp only; split
    · exact ⟨rfl, rfl, fun _ => rfl, rfl, nofun⟩
    · exact .idle
  | dspProbe | dspInit =>
    unfold seqBegin; dsimp only; split
    · exact .inl .idle
    · next hb => exact .inr ⟨by simpa using hb, _, rfl⟩
  | dspSetPixel => rw [seqBegin, dspSetPixel, setPixel_frame]; exact .inl .idle
  | dspWriteChar =>
    refine .inl ?_
    unfold seqBegin; dsimp only; split
    · exact .idle
    · exact .enterGlyph
  | dspFlush =>
    refine .inl ?_
    unfold seqBegin; dsimp only; split
    · next hb => rw [hb]; exact .enterWindow
    · exact .idle
  | dspWriteString | busCmdTransfer | busDataTransfer | busReadyQuery | swFrame => exact .inl (.idle hs)

theorem seqBegin_binding (p : Params) (e : Env) (i : Instr) {s : State} (hs : s.seq = .idle) :
    (seqBegin p e i s).boundValid = s.boundValid ∧ (seqBegin p e i s).boundAddr = s.boundAddr := by
  rcases seqBegin_cases p e i hs with h | ⟨_, _, h⟩
  · exact ⟨h.valid, h.addr⟩
  · rw [h]; exact ⟨rfl, rfl⟩

theorem seqBegin_sequencerInv {p : Params} (e : Env) (i : Instr) (htrials : 0 < p.probeTrials) {s : State}
    (hs : s.seq = .idle) : SequencerInv p (seqBegin p e i s) := by
  rcases seqBegin_cases p e i hs with h | ⟨hb, _, h⟩
  · exact h.sequencerInv (by rw [hs]; rfl) id
  · rw [h]
    exact ⟨decide_eq_true htrials, fun h => absurd (hb.symm.trans h) nofun, nofun⟩

/-! ## Instructions -/

/-- Only `DSP_PROBE` and `DSP_INIT` bind, and only while unbound (R35, R230, R235). -/
theorem execFor_binding {p : Params} {e : Env} {i : Instr} {s t : State} (h : execFor p e i s = .next t) :
    BindingStep p (s.boundValid = false) s t := by
  have hv := congrArg State.boundValid (execFor_frame h)
  have ha := congrArg State.boundAddr (execFor_frame h)
  cases i
  case dspProbe =>
    obtain rfl := Host.Outcome.next.inj h
    rcases dspProbe_cases p e s with ⟨_, h⟩ | ⟨hb, ⟨u, a, hu, ha, h⟩ | ⟨u, hu, h⟩⟩ <;> rw [h]
    · exact .inl ⟨rfl, rfl⟩
    · exact .inr ⟨hb, rfl, ha⟩
    · exact .inl ⟨hu.boundValid, hu.boundAddr⟩
  case dspInit =>
    obtain rfl := Host.Outcome.next.inj h
    rcases dspInit_cases p e s with ⟨_, h⟩ | ⟨hb, ⟨u, a, hu, ha, h⟩ | ⟨u, hu, h⟩⟩ <;> rw [h]
    · exact .inl ⟨rfl, rfl⟩
    · exact .inr ⟨hb, rfl, ha⟩
    · exact .inl ⟨hu.boundValid, hu.boundAddr⟩
  all_goals exact .inl ⟨hv, ha⟩

theorem ReadEnded.seq_idle {e : Env} {s t : State} (h : ReadEnded e s t) : t.seq = .idle := by
  obtain ⟨_, _, _, rfl | ⟨_, rfl⟩⟩ := h <;> rfl

theorem MeasureEnded.seq_idle {e : Env} {s t : State} (h : MeasureEnded e s t) : t.seq = .idle := by
  obtain ⟨_, _, _, rfl⟩ := h; rfl

theorem Sent.seq {s t : State} (h : Sent s t) : t.seq = s.seq := by
  obtain ⟨_, _, _, _, rfl, _⟩ := h; rfl

theorem dspWriteChar_seq (p : Params) (e : Env) (s : State) : (dspWriteChar p e s).seq = .idle := by
  rcases dspWriteChar_cases p e s with h | ⟨_, _, h⟩ <;> rw [h] <;> rfl

theorem dspWriteString_seq (p : Params) (e : Env) (codes : List Byte) (font color : Word) {s : State}
    (hs : s.seq = .idle) : (dspWriteString p e codes font color s).seq = .idle := by
  unfold dspWriteString
  induction codes generalizing s with
  | nil => exact hs
  | cons c cs ih => exact ih (dspWriteChar_seq ..)

/-- With the bounded wait for low every instruction ends between commands (R142, R148). -/
theorem execFor_seq_idle {p : Params} {e : Env} {i : Instr} {s t : State} (hbounded : p.lowWaitBounded = true)
    (hs : s.seq = .idle) (h : execFor p e i s = .next t) : t.seq = .idle := by
  cases i
  case busDataTransfer a d => rw [busDataTransfer_next h]; exact hs
  all_goals obtain rfl := Host.Outcome.next.inj h
  case busCmdTransfer | busReadyQuery => exact hs
  case swsRead => rw [swsRead, if_pos hbounded]; exact (swsReadCmd_ended ..).seq_idle
  case swFrame => exact (swFrame_ended ..).seq_idle
  case rngMeasure =>
    rcases rngMeasure_cases p e s with h | h
    · exact h.seq_idle
    · rw [h]; rfl
  case dspProbe => rcases dspProbe_cases p e s with ⟨_, h⟩ | ⟨_, ⟨_, _, _, _, h⟩ | ⟨_, _, h⟩⟩ <;> rw [h] <;> rfl
  case dspInit => rcases dspInit_cases p e s with ⟨_, h⟩ | ⟨_, ⟨_, _, _, _, h⟩ | ⟨_, _, h⟩⟩ <;> rw [h] <;> rfl
  case dspWriteChar => exact dspWriteChar_seq ..
  case dspFlush => rcases dspFlush_cases p e s with ⟨_, _, h⟩ | h <;> rw [h] <;> rfl
  case dspWriteString => exact dspWriteString_seq _ _ _ _ _ hs
  all_goals rfl

theorem regWrite_frame (index : BitVec 4) (v : Word) (s : State) :
    regWrite index v s =
      { s with arg0 := (regWrite index v s).arg0, arg1 := (regWrite index v s).arg1, arg2 := (regWrite index v s).arg2 } := by
  unfold regWrite
  split <;> rfl

/-! ## Steps -/

/-- Every step but a reset keeps the binding, or binds a candidate while unbound or querying. -/
theorem step_binding {s t : State} (h : step s = .next t) :
    BindingStep params (s.boundValid = false ∨ probing s.seq = true) s t ∨
    ∃ rest, s.inbox = .rst :: rest ∧ t = hardReset params env { s with inbox := rest } := by
  rcases step_cases h with ⟨i, rest, _, _, h⟩ | ⟨index, v, rest, _, rfl⟩ | ⟨index, rest, _, rfl⟩ | ⟨v, rest, hs, rfl⟩ |
    ⟨rest, _, rfl⟩ | ⟨rest, _, rfl⟩ | ⟨rest, hrst, rfl⟩
  · rw [exec_eq_execFor] at h
    exact .inl ((execFor_binding h).imp_right fun hbind => ⟨.inl hbind.1, hbind.2⟩)
  · rw [regWrite_frame]; exact .inl (.inl ⟨rfl, rfl⟩)
  · exact .inl (.inl ⟨rfl, rfl⟩)
  · exact .inl (.inl (seqBegin_binding params env _ (s := { s with inbox := rest }) hs))
  · exact .inl ((seqStep_binding env (by decide) (by decide) { s with inbox := rest }).imp_right fun h => ⟨.inr h.1, h.2⟩)
  · exact .inl (.inl ⟨rfl, rfl⟩)
  · exact .inr ⟨rest, hrst, rfl⟩

theorem step_sequencerInv {s t : State} (hs : SequencerInv params s) (h : step s = .next t) : SequencerInv params t := by
  rcases step_cases h with ⟨i, rest, hidle, _, h⟩ | ⟨index, v, rest, hidle, rfl⟩ | ⟨index, rest, _, rfl⟩ | ⟨v, rest, hidle, rfl⟩ |
    ⟨rest, _, rfl⟩ | ⟨rest, _, rfl⟩ | ⟨rest, _, rfl⟩
  · rw [exec_eq_execFor] at h
    exact sequencerInv_of_idle (execFor_seq_idle (s := { s with inbox := rest }) rfl hidle h)
  · rw [regWrite_frame]; exact hs
  · exact hs
  · exact seqBegin_sequencerInv env _ (by decide) hidle
  · exact seqStep_sequencerInv env (by decide) (by decide) (by decide) hs
  · exact hs
  · exact sequencerInv_of_idle rfl

/-- Settles O54: a step changes the binding only to a candidate or by a reset, and a phase is only entered in range, with
queries while unbound and bus writes while bound. -/
theorem stepKeepsBindingAndStatus : Obligations.StepKeepsBindingAndStatus := by
  refine ⟨fun s t hb hst h => ⟨?_, (step_grows h).status hst⟩, fun s t => step_sequencerInv⟩
  rcases step_binding h with hstep | ⟨_, _, rfl⟩
  · exact hstep.bindingInv hb
  · exact ⟨fun _ => rfl, nofun⟩

/-- No step of a bound block starts the queries. -/
theorem step_probing {s t : State} (h : step s = .next t) (hb : s.boundValid = true) (hq : probing s.seq = false) :
    probing t.seq = false := by
  rcases step_cases h with ⟨i, rest, hidle, _, h⟩ | ⟨index, v, rest, _, rfl⟩ | ⟨index, rest, _, rfl⟩ | ⟨v, rest, hidle, rfl⟩ |
    ⟨rest, _, rfl⟩ | ⟨rest, _, rfl⟩ | ⟨rest, _, rfl⟩
  · rw [exec_eq_execFor] at h
    rw [execFor_seq_idle (s := { s with inbox := rest }) rfl hidle h]; rfl
  · rw [regWrite_frame]; exact hq
  · exact hq
  · rcases seqBegin_cases params env (decodeCmd v) (s := { s with inbox := rest }) hidle with h | ⟨hu, _⟩
    · exact h.queriesNot
    · exact absurd (hu.symm.trans hb) nofun
  · exact (seqStep_enters (p := params) (s := { s with inbox := rest }) env (by decide) (by decide) hq).queriesNot
  · exact hq
  · rfl

/-- Settles O49: only an unbound block and a row of the queries bind, and a bound block starts none. -/
theorem bindingIsPermanent : Obligations.BindingIsPermanent := by
  intro s t h hb hrst hseq
  have hq : probing s.seq = false := by
    cases hp : probing s.seq with
    | true =>
      obtain ⟨init, second, n, heq⟩ := eq_dspProbe_of_probing hp
      exact absurd heq (hseq init second n)
    | false => rfl
  have hq' := step_probing h hb hq
  have hseq' : ∀ init second n, t.seq ≠ .dspProbe init second n := by
    intro init second n heq
    rw [heq] at hq'
    exact absurd hq' nofun
  rcases step_binding h with (⟨hv, ha⟩ | ⟨hu | hp, _⟩) | ⟨rest, hin, _⟩
  · exact ⟨hv.trans hb, ha, hseq'⟩
  · exact absurd (hu.symm.trans hb) nofun
  · exact absurd (hq.symm.trans hp) nofun
  · exact absurd hin (hrst rest)

end Sys2Proof.Machine

/-! The lines and the epoch: which rows, beginnings and instructions move them (R36, R132, R141, R142, R152, R172, R312). -/

namespace Sys2Proof.Machine

open Sys2Proof.Safety

/-- What every step keeps of the lines and the timer. -/
def Quiet (s : State) : Prop :=
  LinesInv s ∧ TimerInv s

/-- Both lines released and no epoch valid: the sensor phases but the two that drive a line. -/
def Calm (s : State) : Prop :=
  s.swOe = false ∧ s.trig = false ∧ s.epochValid = false

/-- `t` has the lines and the epoch of `s`, and no sensor command runs in it. -/
def Untimed (s t : State) : Prop :=
  (t.swOe = s.swOe ∧ t.trig = s.trig ∧ t.epoch = s.epoch ∧ t.epochValid = s.epochValid) ∧ sensorPhase t.seq = false

section

variable {p : Params} {e : Env} {s t : State}

theorem linesInv_of_released (hoe : t.swOe = false) (htrig : t.trig = false) : LinesInv t :=
  ⟨fun h => absurd (hoe.symm.trans h) nofun, fun h => absurd (htrig.symm.trans h) nofun⟩

theorem timerInv_of_invalid (hv : t.epochValid = false) : TimerInv t :=
  fun h => absurd (hv.symm.trans h) nofun

theorem Calm.quiet (h : Calm s) : Quiet s :=
  ⟨linesInv_of_released h.1 h.2.1, timerInv_of_invalid h.2.2⟩

/-- Outside its phase the block does not pull the sensor line. -/
theorem Quiet.swOe_released (h : Quiet s) (hs : s.seq ≠ .swStartLow) : s.swOe = false :=
  Bool.eq_false_iff.mpr fun hoe => hs (h.1.1 hoe)

/-- Outside its phase the block does not drive the trigger. -/
theorem Quiet.trig_released (h : Quiet s) (hs : s.seq ≠ .rngPulse) : s.trig = false :=
  Bool.eq_false_iff.mpr fun htrig => hs (h.1.2 htrig)

/-- While a sensor command runs no epoch is valid. -/
theorem Quiet.epoch_invalid (h : Quiet s) (hs : sensorPhase s.seq = true) : s.epochValid = false :=
  Bool.eq_false_iff.mpr fun hv => absurd (hs.symm.trans (h.2 hv).2) nofun

/-- A sensor phase that drives no line is calm. -/
theorem Quiet.calm (h : Quiet s) {ph : Seq} (hs : s.seq = ph) (hoe : ph ≠ .swStartLow) (htrig : ph ≠ .rngPulse)
    (hph : sensorPhase ph = true) : Calm s := by
  subst hs
  exact ⟨h.swOe_released hoe, h.trig_released htrig, h.epoch_invalid hph⟩

theorem Untimed.quiet (h : Untimed s t) (hs : Quiet s) (htime : s.time ≤ t.time) (hoe : s.seq ≠ .swStartLow)
    (htrig : s.seq ≠ .rngPulse) : Quiet t := by
  obtain ⟨⟨hoe', htrig', hep, hv⟩, hseq⟩ := h
  refine ⟨linesInv_of_released (hoe'.trans (hs.swOe_released hoe)) (htrig'.trans (hs.trig_released htrig)), fun h => ⟨?_, hseq⟩⟩
  rw [hep]
  exact le_trans (hs.2 (hv.symm.trans h)).1 htime

/-! ## Rows -/

theorem Calm.byteEnds (h : Calm s) {k : Nat} {b : Byte} : Calm (byteEnds p k b s) := by
  unfold Machine.byteEnds
  split <;> exact h

theorem Calm.swsCheck (h : Calm s) : Calm (swsCheck e s) := by
  rcases swsCheck_cases e s with heq | ⟨_, heq⟩ <;> rw [heq] <;> exact h

theorem Sent.untimed (h : Sent s t) (hs : sensorPhase s.seq = false) : Untimed s t := by
  obtain ⟨_, _, _, _, rfl, _⟩ := h
  exact ⟨⟨rfl, rfl, rfl, rfl⟩, hs⟩

namespace Untimed

theorem enterChunk {n : Nat} (h : Untimed s t) : Untimed s (enterChunk p e n t) := by
  rcases enterChunk_cases p e n t with ⟨_, heq⟩ | ⟨_, heq⟩ <;> rw [heq] <;> exact ⟨h.1, rfl⟩

theorem enterWindow {q : Nat} (h : Untimed s t) : Untimed s (enterWindow p e q t) := by
  rcases enterWindow_cases p e q t with ⟨_, heq⟩ | ⟨_, heq⟩ <;> rw [heq]
  · exact ⟨h.1, rfl⟩
  · exact h.enterChunk

theorem enterConfig {q : Nat} (h : Untimed s t) : Untimed s (enterConfig p q t) := by
  rcases enterConfig_cases p q t with ⟨_, heq⟩ | ⟨_, heq⟩ <;> rw [heq] <;> exact ⟨h.1, rfl⟩

theorem enterGlyph {r c : Nat} (h : Untimed s t) : Untimed s (enterGlyph p e r c t) := by
  rcases enterGlyph_cases p e r c t with ⟨_, _, _, _, heq⟩ | heq <;> rw [heq] <;> exact ⟨h.1, rfl⟩

theorem probeNext {init second : Bool} {n : Nat} (h : Untimed s t) : Untimed s (probeNext p e init second n t) := by
  unfold Machine.probeNext
  split
  · exact ⟨h.1, rfl⟩
  · split <;> exact ⟨h.1, rfl⟩

theorem setPixel {x y : Nat} {k : Bool} (hs : sensorPhase s.seq = false) : Untimed s (setPixel p x y k s) := by
  rw [setPixel_frame]; exact ⟨⟨rfl, rfl, rfl, rfl⟩, hs⟩

theorem probeRow {init second : Bool} {n : Nat} (hs : sensorPhase s.seq = false) :
    Untimed s (probeRow p e init second n s) := by
  refine probeRow_of (fun a u _ hu => ?_) (fun u hu => (hu.untimed hs).probeNext)
  have bound : Untimed s { u with boundValid := true, boundAddr := a } := hu.untimed hs
  split
  · exact bound.enterConfig
  · exact ⟨bound.1, rfl⟩

end Untimed

/-- A row of a display command moves neither the lines nor the epoch. -/
theorem seqStep_untimed (hs : sensorPhase s.seq = false) (hw : s.seq ≠ .tmrWait) : Untimed s (seqStep p e s) := by
  unfold seqStep
  cases hseq : s.seq with dsimp only
  | idle => exact ⟨⟨rfl, rfl, rfl, rfl⟩, hs⟩
  | tmrWait => exact absurd hseq hw
  | dspProbe init second n => exact .probeRow hs
  | dspConfig q => exact ((sendCmds_sent ..).untimed hs).enterConfig
  | dspClearing init =>
    have cleared : Untimed s (fbClear p s) := ⟨⟨rfl, rfl, rfl, rfl⟩, hs⟩
    split
    · exact cleared.enterWindow
    · exact ⟨cleared.1, rfl⟩
  | dspWindow q => exact ((sendCmds_sent ..).untimed hs).enterWindow
  | dspChunk n => exact ((sendChunk_sent ..).untimed hs).enterChunk
  | dspGlyph r c => exact (Untimed.setPixel hs).enterGlyph
  | _ => rw [hseq] at hs; exact absurd hs nofun

theorem Quiet.waitTick (h : Quiet s) : Quiet (waitTick s) :=
  ⟨h.1, fun hv => ⟨Nat.le_succ_of_le (h.2 hv).1, (h.2 hv).2⟩⟩

/-- The rows of the timer and the sensors: each phase that drives a line releases it on leaving, and the others are calm. -/
theorem seqStep_quiet (h : Quiet s) : Quiet (seqStep p e s) := by
  by_cases hd : sensorPhase s.seq = false ∧ s.seq ≠ .tmrWait
  · have hoe : s.seq ≠ .swStartLow := fun heq => by rw [heq] at hd; exact absurd hd.1 nofun
    have htrig : s.seq ≠ .rngPulse := fun heq => by rw [heq] at hd; exact absurd hd.1 nofun
    exact (seqStep_untimed hd.1 hd.2).quiet h (seqStep_grows p e s).time hoe htrig
  · have tick := h.waitTick
    unfold seqStep
    cases hseq : s.seq with dsimp only
    | tmrWait =>
      have hoe := h.swOe_released (by rw [hseq]; nofun)
      have htrig := h.trig_released (by rw [hseq]; nofun)
      exact delayPhase_of tick ⟨linesInv_of_released hoe htrig, timerInv_of_invalid rfl⟩
    | swStartLow =>
      have htrig := h.trig_released (by rw [hseq]; nofun)
      have hv := h.epoch_invalid (by rw [hseq]; rfl)
      exact delayPhase_of tick ⟨linesInv_of_released rfl htrig, timerInv_of_invalid hv⟩
    | rngSettle =>
      have hc := h.calm hseq nofun nofun rfl
      exact delayPhase_of tick ⟨⟨fun hoe => absurd (hc.1.symm.trans hoe) nofun, fun _ => rfl⟩, timerInv_of_invalid hc.2.2⟩
    | rngPulse =>
      have hoe := h.swOe_released (by rw [hseq]; nofun)
      have hv := h.epoch_invalid (by rw [hseq]; rfl)
      exact delayPhase_of tick ⟨linesInv_of_released hoe rfl, timerInv_of_invalid hv⟩
    | swStartHigh | swBitDelay =>
      have hc := h.calm hseq nofun nofun rfl
      exact delayPhase_of tick (Calm.quiet hc)
    | swRespLow1 | swRespHigh | swRespLow2 | rngWaitRise | rngWaitFall =>
      have hc := h.calm hseq nofun nofun rfl
      exact waitPhase_of tick (Calm.quiet hc) (Calm.quiet hc)
    | swBitWaitHigh k i b =>
      have hc := h.calm hseq nofun nofun rfl
      exact waitPhase_of tick (Calm.quiet hc) hc.byteEnds.quiet
    | swBitWaitLow k i b =>
      have hc := h.calm hseq nofun nofun rfl
      refine waitPhase_of tick ?_ hc.byteEnds.quiet
      split
      · exact Calm.quiet hc
      · have later : Calm (latency p e s) := hc
        exact later.byteEnds.quiet
    | swBitSample | rngConvert => exact Calm.quiet (h.calm hseq nofun nofun rfl)
    | swCheck => exact (h.calm hseq nofun nofun rfl).swsCheck.quiet
    | _ => rw [hseq] at hd; exact absurd ⟨rfl, nofun⟩ hd

/-! ## Beginnings and instructions -/

/-- Between commands both lines are released. -/
theorem Quiet.released (h : Quiet s) (hs : s.seq = .idle) : s.swOe = false ∧ s.trig = false :=
  ⟨h.swOe_released (by rw [hs]; nofun), h.trig_released (by rw [hs]; nofun)⟩

theorem Untimed.quiet_of_idle (h : Untimed s t) (hs : Quiet s) (hidle : s.seq = .idle) (htime : s.time ≤ t.time) : Quiet t :=
  h.quiet hs htime (by rw [hidle]; nofun) (by rw [hidle]; nofun)

theorem tmrStartCmd_quiet (hl : s.swOe = false ∧ s.trig = false) : Quiet (tmrStartCmd e s) :=
  ⟨linesInv_of_released hl.1 hl.2, fun _ => ⟨Nat.le_add_right .., rfl⟩⟩

theorem seqBegin_quiet {i : Instr} (h : Quiet s) (hs : s.seq = .idle) : Quiet (seqBegin p e i s) := by
  have hl := h.released hs
  have untimed (hu : Untimed s (seqBegin p e i s)) : Quiet (seqBegin p e i s) :=
    hu.quiet_of_idle h hs (seqBegin_grows p e i s).time
  have start : Untimed s s := ⟨⟨rfl, rfl, rfl, rfl⟩, by rw [hs]; rfl⟩
  cases i with
  | tmrStart => exact tmrStartCmd_quiet hl
  | tmrDelay => exact ⟨linesInv_of_released hl.1 hl.2, fun _ => ⟨le_refl _, rfl⟩⟩
  | swsRead => exact ⟨⟨fun _ => rfl, fun htrig => absurd (hl.2.symm.trans htrig) nofun⟩, timerInv_of_invalid rfl⟩
  | rngMeasure =>
    by_cases hr : p.hasRng = true
    · rw [seqBegin, if_pos hr]; exact Calm.quiet ⟨hl.1, rfl, rfl⟩
    · refine untimed ?_
      rw [seqBegin, if_neg hr]; exact ⟨start.1, rfl⟩
  | tmrElapsed | dspClear | dspSetCursor | reserved => exact untimed ⟨start.1, rfl⟩
  | dspProbe | dspInit =>
    refine untimed ?_
    unfold seqBegin; dsimp only; split <;> exact ⟨start.1, rfl⟩
  | dspSetPixel =>
    refine untimed ?_
    rw [seqBegin, dspSetPixel, setPixel_frame]; exact ⟨start.1, rfl⟩
  | dspWriteChar =>
    refine untimed ?_
    unfold seqBegin; dsimp only; split
    · exact ⟨start.1, rfl⟩
    · exact start.enterGlyph
  | dspFlush =>
    refine untimed ?_
    unfold seqBegin; dsimp only; split
    · exact start.enterWindow
    · exact ⟨start.1, rfl⟩
  | dspWriteString | busCmdTransfer | busDataTransfer | busReadyQuery | swFrame => exact untimed start

theorem ReadEnded.quiet (h : ReadEnded e s t) (htrig : s.trig = false) : Quiet t := by
  obtain ⟨raw, _, ⟨now, ep, n, rfl, _⟩, rfl | ⟨_, rfl⟩⟩ := h <;> exact Calm.quiet ⟨rfl, htrig, rfl⟩

theorem MeasureEnded.quiet (h : MeasureEnded e s t) (hoe : s.swOe = false) : Quiet t := by
  obtain ⟨r, _, ⟨now, ep, n, rfl, _⟩, rfl⟩ := h
  exact Calm.quiet ⟨hoe, rfl, rfl⟩

/-- Only the timed commands move the lines or the epoch, and they leave the lines released. -/
theorem execFor_quiet {i : Instr} (hbounded : p.lowWaitBounded = true) (hs : Quiet s) (hidle : s.seq = .idle)
    (h : execFor p e i s = .next t) : Quiet t := by
  have hl := hs.released hidle
  have untimed (hu : t.swOe = s.swOe ∧ t.trig = s.trig ∧ t.epoch = s.epoch ∧ t.epochValid = s.epochValid) : Quiet t :=
    Untimed.quiet_of_idle ⟨hu, by rw [execFor_seq_idle hbounded hidle h]; rfl⟩ hs hidle (execFor_grows h).time
  have hoe := congrArg State.swOe (execFor_frame h)
  have htrig := congrArg State.trig (execFor_frame h)
  have hep := congrArg State.epoch (execFor_frame h)
  have hv := congrArg State.epochValid (execFor_frame h)
  cases i
  case tmrStart => obtain rfl := Host.Outcome.next.inj h; exact tmrStartCmd_quiet hl
  case tmrDelay => obtain rfl := Host.Outcome.next.inj h; exact Calm.quiet ⟨hl.1, hl.2, rfl⟩
  case swsRead =>
    obtain rfl := Host.Outcome.next.inj h
    rw [swsRead, if_pos hbounded]
    exact (swsReadCmd_ended ..).quiet hl.2
  case swFrame => obtain rfl := Host.Outcome.next.inj h; exact (swFrame_ended ..).quiet hl.2
  case rngMeasure =>
    obtain rfl := Host.Outcome.next.inj h
    rcases rngMeasure_cases p e s with h | h
    · exact h.quiet hl.1
    · rw [h] at untimed ⊢; exact untimed ⟨rfl, rfl, rfl, rfl⟩
  all_goals exact untimed ⟨hoe, htrig, hep, hv⟩

end

/-- Settles O55: rows, beginnings and instructions keep the lines and the epoch quiet, and a reset releases and
invalidates them. -/
theorem stepKeepsLinesAndTimer : Obligations.StepKeepsLinesAndTimer := by
  intro s t hl ht h
  have hs : Quiet s := ⟨hl, ht⟩
  rcases step_cases h with ⟨i, rest, hidle, _, h⟩ | ⟨index, v, rest, _, rfl⟩ | ⟨index, rest, _, rfl⟩ | ⟨v, rest, hidle, rfl⟩ |
    ⟨rest, _, rfl⟩ | ⟨rest, hidle, rfl⟩ | ⟨rest, _, rfl⟩
  · rw [exec_eq_execFor] at h
    exact execFor_quiet (s := { s with inbox := rest }) rfl hs hidle h
  · rw [regWrite_frame]; exact hs
  · exact hs
  · exact seqBegin_quiet (s := { s with inbox := rest }) hs hidle
  · exact seqStep_quiet (s := { s with inbox := rest }) hs
  · have idle : Untimed s (lapse env { s with inbox := rest }) := ⟨⟨rfl, rfl, rfl, rfl⟩, by rw [lapse_seq, hidle]; rfl⟩
    exact idle.quiet_of_idle hs hidle (Nat.le_add_right ..)
  · exact Calm.quiet ⟨rfl, rfl, rfl⟩

end Sys2Proof.Machine

/-! The decoder: what it accepts encodes back, format by format (R31, R91, R95 to R101). -/

namespace Sys2Proof

/-- An address byte with the write direction is the one of the address it carries (R95). -/
theorem addressByte_addressOf {b : Byte} (h : b.getLsbD 0 = false) : addressByte (addressOf b) = b := by
  have heven : b.toNat % 2 = 0 := by simpa [BitVec.getLsbD, Nat.testBit] using h
  apply BitVec.eq_of_toNat_eq
  simp [addressByte, addressOf, Nat.shiftLeft_eq, Nat.shiftRight_eq_div_pow]
  omega

/-- A byte assembled from eight bits has these bits (R68, R101). -/
theorem bitsOfByte_byteOfBits {bits : List Bool} (h : bits.length = 8) : bitsOfByte (byteOfBits bits) = bits := by
  match bits, h with
  | [b7, b6, b5, b4, b3, b2, b1, b0], _ =>
    simp [bitsOfByte, byteOfBits, List.range_succ, Machine.getLsbD_withBit, -BitVec.getLsbD_eq_getElem]

/-- The instruction an opcode selects is well-formed and has that opcode (R91, R104). -/
theorem decodeOpcode_accepted (op : Byte) : (decodeOpcode op).wf = true ∧ encode (decodeOpcode op) = .cmd (op.setWidth 16) := by
  unfold decodeOpcode
  split
  case h_13 h1 h2 h3 h10 h20 h30 h31 h32 h33 h34 h35 h36 =>
    refine ⟨?_, rfl⟩
    simp only [Instr.wf, definedOpcodes, List.contains_cons, List.contains_nil, Bool.or_false, Bool.not_eq_true',
      Bool.or_eq_false_iff, beq_eq_false_iff_ne, ne_eq, BitVec.toNat_eq]
    exact ⟨h1, h2, h3, h10, h20, h30, h31, h32, h33, h34, h35, h36⟩
  all_goals
    next hop =>
    have hval : op = BitVec.ofNat 8 op.toNat := by simp
    rw [hop] at hval
    subst hval
    exact ⟨rfl, rfl⟩

theorem decodeBus_accepted {bytes : List Byte} {i : Instr}
    (h : decodeBus Config.ctrlCmd Config.ctrlData Config.chunk bytes = .ok i) : i.wf = true ∧ encode i = .bus bytes := by
  unfold decodeBus at h
  split at h
  · cases h
  · next b payload =>
    split at h
    · cases h
    · next hdir =>
      have hb := addressByte_addressOf (Bool.eq_false_iff.mpr hdir)
      split at h
      · cases h
        exact ⟨rfl, by rw [encode, hb]⟩
      · next ctrl rest =>
        split at h
        · next hctrl =>
          split at h
          · cases h
            exact ⟨rfl, by rw [encode, hb, hctrl]⟩
          · cases h
        · split at h
          · next hctrl =>
            split at h
            · next hlen =>
              cases h
              exact ⟨by simp [Instr.wf, hlen], by rw [encode, hb, hctrl]⟩
            · cases h
          · cases h

/-- Five groups of eight are all of forty bits. -/
theorem bytes_of_bits {bits : List Bool} (h : bits.length = 40) :
    bits.take 8 ++ (bits.drop 8).take 8 ++ (bits.drop 16).take 8 ++ (bits.drop 24).take 8 ++ (bits.drop 32).take 8 = bits := by
  have last : (bits.drop 32).take 8 = bits.drop 32 := List.take_of_length_le (by simp [h])
  have group (n : Nat) : (bits.drop n).take 8 ++ bits.drop (n + 8) = bits.drop n := by
    rw [← List.drop_drop, List.take_append_drop]
  rw [last, List.append_assoc, group 24, List.append_assoc, group 16, List.append_assoc, group 8, List.take_append_drop]

theorem decodeLine_accepted {bits : List Bool} {i : Instr} (h : decodeLine bits = .ok i) :
    i.wf = true ∧ encode i = .line bits := by
  unfold decodeLine at h
  split at h
  · next hlen =>
    cases h
    have group (n : Nat) (hn : n ≤ 32) : bitsOfByte (byteOfBits ((bits.drop n).take 8)) = (bits.drop n).take 8 :=
      bitsOfByte_byteOfBits (by simp [hlen]; omega)
    refine ⟨rfl, ?_⟩
    have first := group 0 (by omega)
    rw [List.drop_zero] at first
    simp only [encode, List.flatMap_cons, List.flatMap_nil, List.append_nil, first, group 8, group 16, group 24, group 32,
      Nat.reduceLeDiff]
    rw [← List.append_assoc, ← List.append_assoc, ← List.append_assoc, bytes_of_bits hlen]
  · cases h

/-- Settles O2, format by format. -/
theorem acceptedPacketsEncodeBack : Obligations.AcceptedPacketsEncodeBack := by
  intro pk i h
  cases pk with
  | cmd w => cases h; exact decodeOpcode_accepted _
  | bus bytes => exact decodeBus_accepted h
  | line bits => exact decodeLine_accepted h
  | text codes font color => cases h; exact ⟨rfl, rfl⟩

/-- Settles O3: each word is decoded by evaluation. -/
theorem writtenOutWordsDecode : Obligations.WrittenOutWordsDecode :=
  ⟨rfl, rfl, rfl, rfl, rfl, rfl, rfl, rfl, rfl, by decide⟩

end Sys2Proof

/-! Steps and host accesses: what a step does between commands, while a command runs, and on a reset (R21, R23, R31, R50). -/

namespace Sys2Proof.Machine

open Sys2Proof.Safety

/-! ## Instructions -/

/-- A packet that decodes is run as its instruction (R31, R91, log 11). -/
theorem runPacket_of_decode {pk : Packet} {i : Instr} (h : decode pk = .ok i) (run : Run) (s : State) :
    runPacket run params pk s = run i s := by
  unfold runPacket; rw [decodeFor_params, h]

theorem runPacket_of_error {pk : Packet} {err : DecodeError} (h : decode pk = .error err) (run : Run) (s : State) :
    runPacket run params pk s = .refused (.undecodable err) := by
  unfold runPacket; rw [decodeFor_params, h]

/-- The input that delivers a packet delivers it: a host command as a `CMD` write, any other as it stands. -/
theorem deliver_inputOf (run : Run) (p : Params) (e : Env) (pk : Packet) (s : State) :
    deliver run p e (inputOf pk) s = runPacket run p pk s := by
  cases pk <;> rfl

theorem step_of_inputOf {s : State} {pk : Packet} {i : Instr} {rest : List HostInput} (hs : s.seq = .idle)
    (hin : s.inbox = inputOf pk :: rest) (h : decode pk = .ok i) : step s = exec i { s with inbox := rest } := by
  rw [step_of_idle hin hs, deliver_inputOf, runPacket_of_decode h]

theorem decode_of_decodeTableWord {nbits w : Nat} {i : Instr} (h : decodeTableWord nbits w = some i) :
    decode (tablePacket nbits w) = .ok i := by
  unfold decodeTableWord at h
  split at h
  · next heq => rw [heq, Option.some.inj h]
  · cases h

/-- Settles O5: the access is delivered, and its packet run as what it decodes to. -/
theorem stepRunsTheDecodedInstruction : Obligations.StepRunsTheDecodedInstruction := by
  intro s rest hs
  refine ⟨fun w hin => step_of_inputOf (pk := .cmd w) hs hin rfl, fun pk i hin h => ?_, fun pk err hin h => ?_,
    fun nbits w i h => step_of_inputOf (s := s.withFetchWord nbits w) hs rfl (decode_of_decodeTableWord h)⟩
  · rw [step_of_idle hin hs]; exact runPacket_of_decode h _ _
  · rw [step_of_idle hin hs]; exact runPacket_of_error h _ _

/-! ## Register accesses -/

/-- A write of any register but `CMD` reaches `regWrite` (R23, R51). -/
theorem step_of_write {s : State} {index : BitVec 4} {v : Word} {rest : List HostInput} (hs : s.seq = .idle)
    (hin : s.inbox = .write index v :: rest) (h0 : index ≠ 0#4) : step s = .next (regWrite index v { s with inbox := rest }) := by
  rw [step_of_idle hin hs]; exact if_neg h0

/-- A write outside the operand registers is ignored (R23). -/
theorem regWrite_of_ne {index : BitVec 4} (h2 : index ≠ 2#4) (h3 : index ≠ 3#4) (h4 : index ≠ 4#4) (v : Word) (s : State) :
    regWrite index v s = s := by
  unfold regWrite
  split
  · next h => exact absurd (BitVec.eq_of_toNat_eq h) h2
  · next h => exact absurd (BitVec.eq_of_toNat_eq h) h3
  · next h => exact absurd (BitVec.eq_of_toNat_eq h) h4
  · rfl

/-- Settles O6: a read is `hostRead`, and a write `regWrite`, which only knows `ARG0..2`. -/
theorem hostAccessesReachOnlyOperands : Obligations.HostAccessesReachOnlyOperands := by
  intro s index v rest hs
  refine ⟨fun hin => by rw [step_of_idle hin hs]; rfl, fun hin => ⟨?_, ?_, ?_, ?_⟩⟩
  · rintro rfl; exact step_of_write hs hin (by decide)
  · rintro rfl; exact step_of_write hs hin (by decide)
  · rintro rfl; exact step_of_write hs hin (by decide)
  · intro h0 h2 h3 h4
    rw [step_of_write hs hin h0, regWrite_of_ne h2 h3 h4]

theorem statusByte_toNat (s : State) :
    (statusByte s).toNat = s.stOk.toNat + 2 * s.stIll.toNat + 4 * s.boundValid.toNat + 8 * s.epochValid.toNat := by
  unfold statusByte
  cases s.stOk <;> cases s.stIll <;> cases s.boundValid <;> cases s.epochValid <;> rfl

theorem dspAddrByte_toNat (s : State) :
    (dspAddrByte s).toNat = if s.boundValid then 128 + s.boundAddr.toNat else 0 := by
  unfold dspAddrByte
  cases s.boundValid with
  | false => simp
  | true =>
    have := s.boundAddr.isLt
    rw [if_pos rfl, if_pos rfl, BitVec.toNat_append, ← Nat.shiftLeft_add_eq_or_of_lt this]
    rfl

/-- A narrow register reads as its value (R23). -/
theorem toNat_setWidth_byte (b : Byte) : (b.setWidth 16).toNat = b.toNat :=
  BitVec.toNat_setWidth_of_le (by decide)

/-- Settles O7, register by register. -/
theorem hostReadsTheRegisterMap : Obligations.HostReadsTheRegisterMap := by
  intro s
  refine ⟨rfl, (toNat_setWidth_byte _).trans (statusByte_toNat s), rfl, rfl, rfl, rfl, toNat_setWidth_byte _,
    toNat_setWidth_byte _, toNat_setWidth_byte _, toNat_setWidth_byte _, toNat_setWidth_byte _, toNat_setWidth_byte _, rfl, rfl,
    (toNat_setWidth_byte _).trans (dspAddrByte_toNat s), rfl⟩

/-! ## A running command -/

theorem Sent.inbox {s t : State} (h : Sent s t) : t.inbox = s.inbox := by
  obtain ⟨_, _, _, _, rfl, _⟩ := h; rfl

theorem enterChunk_inbox (p : Params) (e : Env) (n : Nat) (s : State) : (enterChunk p e n s).inbox = s.inbox := by
  unfold enterChunk; split <;> rfl

theorem enterWindow_inbox (p : Params) (e : Env) (q : Nat) (s : State) : (enterWindow p e q s).inbox = s.inbox := by
  unfold enterWindow
  split
  · rfl
  · exact enterChunk_inbox ..

theorem enterConfig_inbox (p : Params) (q : Nat) (s : State) : (enterConfig p q s).inbox = s.inbox := by
  unfold enterConfig; split <;> rfl

theorem enterGlyph_inbox (p : Params) (e : Env) (r c : Nat) (s : State) : (enterGlyph p e r c s).inbox = s.inbox := by
  unfold enterGlyph
  split
  · rfl
  · split <;> rfl

theorem byteEnds_inbox (p : Params) (k : Nat) (b : Byte) (s : State) : (byteEnds p k b s).inbox = s.inbox := by
  unfold byteEnds; split <;> rfl

theorem swsCheck_inbox (e : Env) (s : State) : (swsCheck e s).inbox = s.inbox := by
  rcases swsCheck_cases e s with h | ⟨_, h⟩ <;> rw [h] <;> rfl

theorem probeNext_inbox (p : Params) (e : Env) (init second : Bool) (n : Nat) (s : State) :
    (probeNext p e init second n s).inbox = s.inbox := by
  unfold probeNext
  split
  · rfl
  · split <;> rfl

/-- A row takes no access off the inbox (R21). -/
theorem seqStep_inbox (p : Params) (e : Env) (s : State) : (seqStep p e s).inbox = s.inbox := by
  have delay {n : Nat} {done : State → State} (h : (done (overshoot p e s)).inbox = s.inbox) :
      (delayPhase p e n done s).inbox = s.inbox := delayPhase_of (P := fun t => t.inbox = s.inbox) rfl h
  have wait {src : Nat → Bool} {v bounded : Bool} {budget : Nat} {met timeout : State → State}
      (h1 : (met (latency p e s)).inbox = s.inbox) (h2 : (timeout s).inbox = s.inbox) :
      (waitPhase p e src v bounded budget met timeout s).inbox = s.inbox :=
    waitPhase_of (P := fun t => t.inbox = s.inbox) rfl h1 h2
  unfold seqStep
  cases s.seq with dsimp only
  | tmrWait | swStartLow | swStartHigh | swBitDelay | rngSettle | rngPulse => exact delay rfl
  | swRespLow1 | swRespHigh | swRespLow2 | rngWaitRise | rngWaitFall => exact wait rfl rfl
  | swBitWaitHigh k i b => exact wait rfl (byteEnds_inbox ..)
  | swBitWaitLow k i b =>
    refine wait ?_ (byteEnds_inbox ..)
    split
    · rfl
    · exact byteEnds_inbox ..
  | swBitSample | rngConvert => rfl
  | swCheck => exact swsCheck_inbox ..
  | dspProbe init second n =>
    refine probeRow_of (P := fun t => t.inbox = s.inbox) (fun a u _ hu => ?_) (fun u hu => ?_)
    · split
      · exact (enterConfig_inbox ..).trans hu.inbox
      · exact hu.inbox
    · exact (probeNext_inbox ..).trans hu.inbox
  | dspConfig q => exact (enterConfig_inbox ..).trans (sendCmds_sent ..).inbox
  | dspClearing init =>
    split
    · exact enterWindow_inbox ..
    · rfl
  | dspWindow q => exact (enterWindow_inbox ..).trans (sendCmds_sent ..).inbox
  | dspChunk n => exact enterChunk_inbox ..
  | dspGlyph r c => rw [enterGlyph_inbox, paintPixel, setPixel_frame]

/-- A step with `wait`, or with nothing to deliver, passes one row or idle time. -/
theorem step_of_wait_or_nil {s : State} {rest : List HostInput} (h : s.inbox = .wait :: rest ∨ (s.inbox = [] ∧ rest = [])) :
    step s = .next (pass params env { s with inbox := rest }) := by
  rcases h with h | ⟨h, rfl⟩
  · exact step_of_wait h
  · rw [step_of_nil h, ← h]

/-- Settles O8: by the head of the inbox and whether a command runs. -/
theorem hostStallsWhileACommandRuns : Obligations.HostStallsWhileACommandRuns := by
  refine ⟨fun s x rest hs hin h1 h2 => ⟨step_of_running hin hs h1 h2, (seqStep_inbox ..).trans hin⟩,
    fun s v rest hs hin => by rw [step_of_idle hin hs]; rfl, fun s rest hin => ⟨fun hs => ?_, fun hs => ?_⟩⟩
  · rw [step_of_wait_or_nil hin, pass_of_running]
    exact hs
  · rw [step_of_wait_or_nil hin, pass_of_idle]
    · rfl
    · exact hs

/-! ## Reset -/

/-- Settles O9: a reset is delivered at any time, and is `hardReset`. -/
theorem resetAbandonsAnything : Obligations.ResetAbandonsAnything :=
  fun _ _ hin => ⟨_, step_of_rst hin, rfl⟩

/-- Settles O10: each value is the one `State.reset` writes. -/
theorem resetLeavesTheStatedValues : Obligations.ResetLeavesTheStatedValues := by
  refine ⟨by decide, fun _ => rfl, rfl, rfl, rfl, rfl, rfl, rfl, rfl, rfl, rfl, rfl, rfl, rfl, rfl, rfl⟩

/-- Settles O57: the reset state is unbound, idle and released, its reading and framebuffer zero, its trace empty. -/
theorem invariantsHoldAtReset : Obligations.InvariantsHoldAtReset :=
  ⟨⟨Memory.wf_reset, rfl⟩, ⟨rfl, rfl⟩, ⟨fun _ => rfl, nofun⟩, rfl, sequencerInv_of_idle rfl, ⟨nofun, nofun⟩, nofun, ⟨rfl, rfl⟩⟩

end Sys2Proof.Machine

/-! Two runs that differ only in scratch: `RAW`, `TBUF` and an invalid epoch reach nothing else (R36, U23). -/

namespace Sys2Proof.Machine

/-- `u` is `s` with other scratch: `RAW`, `TBUF` and, while it is invalid, the epoch. -/
def Twin (s u : State) : Prop :=
  ∃ ep raw tbuf, u = { s with epoch := ep, raw := raw, tbuf := tbuf } ∧ (s.epochValid = true → ep = s.epoch)

/-- `s` with other `RAW` and `TBUF`, which is how two runs differ once the counter has been restarted. -/
def withScratch (raw : Reading) (tbuf : List Byte) (s : State) : State :=
  { s with raw := raw, tbuf := tbuf }

section

variable {p : Params} {e : Env} {s u : State}

theorem Twin.withScratch (raw : Reading) (tbuf : List Byte) (s : State) : Twin s (withScratch raw tbuf s) :=
  ⟨s.epoch, raw, tbuf, rfl, fun _ => rfl⟩

theorem Twin.finish {ok ill : Bool} (h : Twin s u) : Twin (finish e ok ill s) (finish e ok ill u) := by
  obtain ⟨ep, raw, tbuf, rfl, hep⟩ := h
  exact ⟨ep, raw, tbuf, rfl, hep⟩

theorem Twin.succeed (h : Twin s u) : Twin (succeed e s) (succeed e u) := h.finish
theorem Twin.fail (h : Twin s u) : Twin (fail e s) (fail e u) := h.finish
theorem Twin.refuse (h : Twin s u) : Twin (refuse e s) (refuse e u) := h.finish

theorem Twin.foldl {α : Type} {f : State → α → State} (hf : ∀ s u a, Twin s u → Twin (f s a) (f u a)) (l : List α)
    (h : Twin s u) : Twin (l.foldl f s) (l.foldl f u) := by
  induction l generalizing s u with
  | nil => exact h
  | cons a l ih => exact ih (hf s u a h)

/-! ## Waits -/

theorem waitLevelUntil_withScratch (src : Nat → Bool) (v : Bool) (budget : Nat) (raw : Reading) (tbuf : List Byte) (s : State) :
    waitLevelUntil p e src v budget (withScratch raw tbuf s) =
      Prod.map id (withScratch raw tbuf) (waitLevelUntil p e src v budget s) := by
  simp only [waitLevelUntil, withScratch]
  rcases scan p src v s.epoch budget (budget + 1) s.time with ⟨_ | _, t⟩ <;> rfl

theorem waitLevel_withScratch (src : Nat → Bool) (v : Bool) (budget : Nat) (raw : Reading) (tbuf : List Byte) (s : State) :
    waitLevel p e src v budget (withScratch raw tbuf s) =
      Prod.map id (withScratch raw tbuf) (waitLevel p e src v budget s) :=
  waitLevelUntil_withScratch src v budget raw tbuf (tmrStart s)

theorem swLine_withScratch (raw : Reading) (tbuf : List Byte) (s : State) : swLine e (withScratch raw tbuf s) = swLine e s :=
  rfl

theorem swsRespond_withScratch (raw : Reading) (tbuf : List Byte) (s : State) :
    swsRespond p e (withScratch raw tbuf s) = Prod.map id (withScratch raw tbuf) (swsRespond p e s) := by
  unfold swsRespond
  rw [swLine_withScratch, waitLevel_withScratch]
  rcases waitLevel p e (swLine e s) false p.swTimeout s with ⟨_ | _, s1⟩
  · rfl
  · dsimp only [Prod.map, id]
    rw [swLine_withScratch, waitLevel_withScratch]
    rcases waitLevel p e (swLine e s1) true p.swTimeout s1 with ⟨_ | _, s2⟩
    · rfl
    · exact waitLevel_withScratch ..

theorem readBits_withScratch (raw : Reading) (tbuf : List Byte) (n : Nat) (b : Byte) (s : State) :
    readBits p e n b (withScratch raw tbuf s) = Prod.map id (withScratch raw tbuf) (readBits p e n b s) := by
  induction n generalizing b s with
  | zero => rfl
  | succ n ih =>
    unfold readBits
    rw [swLine_withScratch, waitLevel_withScratch]
    rcases waitLevel p e (swLine e s) true p.swTimeout s with ⟨_ | _, s1⟩
    · rfl
    · have hdelay : delay p e p.swSampleDelay (withScratch raw tbuf s1) = withScratch raw tbuf (delay p e p.swSampleDelay s1) := rfl
      dsimp only [Prod.map, id]
      rw [hdelay, swLine_withScratch, waitLevel_withScratch]
      rcases waitLevel p e (swLine e (delay p e p.swSampleDelay s1)) false p.swTimeout (delay p e p.swSampleDelay s1)
        with ⟨_ | _, s3⟩
      · rfl
      · exact ih ..

/-- The bytes put into `RAW` one after the other. -/
def putBytes (ks : List Nat) (bytes : List Byte) (raw : Reading) : Reading :=
  (ks.zip bytes).foldl (fun raw x => putRaw x.1 x.2 raw) raw

/-- The bytes of a frame do not depend on the scratch the read began with. -/
theorem readFrame_withScratch (ks : List Nat) (s : State) :
    ∃ bytes : List Byte, bytes.length = ks.length ∧ ∀ raw tbuf,
      readFrame p e ks (withScratch raw tbuf s) = withScratch (putBytes ks bytes raw) tbuf (readFrame p e ks s) := by
  induction ks generalizing s with
  | nil => exact ⟨[], rfl, fun _ _ => rfl⟩
  | cons k ks ih =>
    obtain ⟨bytes, hlen, ih⟩ := ih { (readBits p e p.swNbits 0 s).2 with
      raw := putRaw k (readBits p e p.swNbits 0 s).1 (readBits p e p.swNbits 0 s).2.raw }
    refine ⟨(readBits p e p.swNbits 0 s).1 :: bytes, by simp [hlen], fun raw tbuf => ?_⟩
    unfold readFrame
    rw [readBits_withScratch]
    exact ih (putRaw k (readBits p e p.swNbits 0 s).1 raw) tbuf

/-- Five bytes fill `RAW`, whatever it held. -/
theorem putBytes_fills {bytes : List Byte} (h : bytes.length = 5) (raw raw' : Reading) :
    putBytes (List.range 5) bytes raw = putBytes (List.range 5) bytes raw' := by
  match bytes, h with
  | [b0, b1, b2, b3, b4], _ => rfl

/-- After a whole frame only `TBUF` still differs. -/
theorem readFrame_range_withScratch (hn : p.swNbytes = 5) (raw : Reading) (tbuf : List Byte) (s : State) :
    readFrame p e (List.range p.swNbytes) (withScratch raw tbuf s) =
      { readFrame p e (List.range p.swNbytes) s with tbuf := tbuf } := by
  rw [hn]
  obtain ⟨bytes, hlen, h⟩ := readFrame_withScratch (p := p) (e := e) (List.range 5) s
  have hraw : (readFrame p e (List.range 5) s).raw = putBytes (List.range 5) bytes s.raw :=
    congrArg State.raw (h s.raw s.tbuf)
  rw [h, putBytes_fills (by simpa using hlen) raw s.raw, ← hraw]
  rfl

/-! ## Sensor commands -/

theorem Twin.swsCheck {tbuf : List Byte} : Twin (swsCheck e s) (swsCheck e { s with tbuf := tbuf }) := by
  unfold Machine.swsCheck
  cases checksumHolds s.raw with
  | true => exact .succeed ⟨s.epoch, s.raw, tbuf, rfl, fun _ => rfl⟩
  | false => exact .fail ⟨s.epoch, s.raw, tbuf, rfl, fun _ => rfl⟩

theorem Twin.swsReadCmd (hn : p.swNbytes = 5) (h : Twin s u) : Twin (swsReadCmd p e s) (swsReadCmd p e u) := by
  obtain ⟨ep, raw, tbuf, rfl, _⟩ := h
  have hstart : swsStart p e { s with epoch := ep, raw := raw, tbuf := tbuf } = Machine.withScratch raw tbuf (swsStart p e s) := rfl
  unfold Machine.swsReadCmd
  rw [hstart, swsRespond_withScratch]
  rcases swsRespond p e (swsStart p e s) with ⟨_ | _, s1⟩
  · exact (Twin.withScratch raw tbuf s1).fail
  · dsimp only [Prod.map, id]
    rw [readFrame_range_withScratch hn]
    exact .swsCheck

theorem Twin.swsRead (hn : p.swNbytes = 5) (h : Twin s u) : Twin (swsRead p e s) (swsRead p e u) := by
  unfold Machine.swsRead
  split
  · exact h.swsReadCmd hn
  · obtain ⟨ep, raw, tbuf, rfl, _⟩ := h
    exact ⟨s.time, raw, tbuf, rfl, fun _ => rfl⟩

theorem Twin.swFrame {r : Reading} (h : Twin s u) : Twin (swFrame e r s) (swFrame e r u) := by
  obtain ⟨ep, raw, tbuf, rfl, _⟩ := h
  exact .swsCheck

theorem rngEcho_withScratch (raw : Reading) (tbuf : List Byte) (s : State) :
    rngEcho p e (withScratch raw tbuf s) = Prod.map id (withScratch raw tbuf) (rngEcho p e s) := by
  unfold rngEcho
  rw [waitLevelUntil_withScratch]
  rcases waitLevelUntil p e e.echo true p.rngTimeout s with ⟨_ | _, s1⟩
  · rfl
  · have helapsed : elapsed p (withScratch raw tbuf s1) = elapsed p s1 := rfl
    dsimp only [Prod.map, id]
    rw [helapsed, waitLevelUntil_withScratch]
    rcases waitLevelUntil p e e.echo false (elapsed p s1 + p.rngTimeout) s1 with ⟨_ | _, s2⟩ <;> rfl

theorem Twin.rngMeasure (h : Twin s u) : Twin (rngMeasure p e s) (rngMeasure p e u) := by
  unfold Machine.rngMeasure
  split
  · obtain ⟨ep, raw, tbuf, rfl, _⟩ := h
    have htrigger : rngTrigger p e { s with epoch := ep, raw := raw, tbuf := tbuf } =
      Machine.withScratch raw tbuf (rngTrigger p e s) := rfl
    rw [htrigger, rngEcho_withScratch]
    exact .succeed ⟨_, raw, tbuf, rfl, fun _ => rfl⟩
  · exact h.refuse

/-! ## Timer commands -/

theorem Twin.tmrStartCmd (h : Twin s u) : Twin (tmrStartCmd e s) (tmrStartCmd e u) := by
  obtain ⟨ep, raw, tbuf, rfl, _⟩ := h
  exact ⟨s.time, raw, tbuf, rfl, fun _ => rfl⟩

/-- `TMR_ELAPSED` reads the epoch only while it is valid (R130, R131). -/
theorem Twin.elapsedResult (h : Twin s u) : elapsedResult p e u = elapsedResult p e s := by
  obtain ⟨ep, raw, tbuf, rfl, hep⟩ := h
  unfold Machine.elapsedResult
  dsimp only
  split
  · next hv => rw [hep hv]; rfl
  · rfl

theorem Twin.tmrElapsedCmd (h : Twin s u) : Twin (tmrElapsedCmd p e s) (tmrElapsedCmd p e u) := by
  unfold Machine.tmrElapsedCmd
  rw [h.elapsedResult]
  obtain ⟨ep, raw, tbuf, rfl, hep⟩ := h
  exact .succeed ⟨ep, raw, tbuf, rfl, hep⟩

theorem Twin.tmrDelayCmd (h : Twin s u) : Twin (tmrDelayCmd p e s) (tmrDelayCmd p e u) := by
  obtain ⟨ep, raw, tbuf, rfl, _⟩ := h
  exact ⟨_, raw, tbuf, rfl, fun _ => rfl⟩

/-! ## Display commands -/

theorem Twin.busWrite {a : Addr7} {payload : List Byte} (h : Twin s u) :
    Twin (busWrite e a payload s) (busWrite e a payload u) := by
  obtain ⟨ep, raw, tbuf, rfl, hep⟩ := h
  exact ⟨ep, raw, tbuf, rfl, hep⟩

theorem Twin.sendData {a : Addr7} {d : List Byte} (h : Twin s u) : Twin (sendData p e a d s) (sendData p e a d u) := by
  obtain ⟨ep, raw, tbuf, rfl, hep⟩ := h
  exact ⟨ep, raw, p.ctrlData :: d, rfl, hep⟩

theorem Twin.busDataTransfer {a : Addr7} {d : List Byte} {t : State} (h : Twin s u)
    (hs : busDataTransfer p e a d s = .next t) : ∃ v, busDataTransfer p e a d u = .next v ∧ Twin t v := by
  have ht := busDataTransfer_next hs
  unfold Machine.busDataTransfer at hs ⊢
  split at hs
  · next hlen => exact ⟨_, if_pos hlen, ht ▸ h.sendData⟩
  · cases hs

theorem Twin.sendCmds {cs : List Byte} (h : Twin s u) : Twin (sendCmds p e cs s) (sendCmds p e cs u) := by
  refine .foldl (fun s u c h => ?_) cs h
  obtain ⟨ep, raw, tbuf, rfl, hep⟩ := h
  exact ⟨ep, raw, tbuf, rfl, hep⟩

theorem Twin.flush (h : Twin s u) : Twin (flush p e s) (flush p e u) := by
  refine .foldl (fun s u n h => ?_) _ h.sendCmds
  obtain ⟨ep, raw, tbuf, rfl, hep⟩ := h
  exact ⟨ep, raw, _, rfl, hep⟩

theorem Twin.fbClear (h : Twin s u) : Twin (fbClear p s) (fbClear p u) := by
  obtain ⟨ep, raw, tbuf, rfl, hep⟩ := h
  exact ⟨ep, raw, tbuf, rfl, hep⟩

theorem Twin.queryTrials {a : Addr7} {n : Nat} (h : Twin s u) :
    ∃ ok s1 u1, queryTrials e a n s = (ok, s1) ∧ queryTrials e a n u = (ok, u1) ∧ Twin s1 u1 := by
  induction n generalizing s u with
  | zero => exact ⟨false, s, u, rfl, rfl, h⟩
  | succ n ih =>
    obtain ⟨ep, raw, tbuf, rfl, hep⟩ := h
    unfold Machine.queryTrials
    rw [busReady_eq, busReady_eq]
    dsimp only
    cases e.ack s.draws a with
    | true => exact ⟨true, _, _, rfl, rfl, ep, raw, tbuf, rfl, hep⟩
    | false => exact ih ⟨ep, raw, tbuf, rfl, hep⟩

theorem Twin.probe (h : Twin s u) : ∃ ok s1 u1, probe p e s = (ok, s1) ∧ probe p e u = (ok, u1) ∧ Twin s1 u1 := by
  obtain ⟨ok, s1, u1, hs, hu, h1⟩ := h.queryTrials (e := e) (a := p.addrPrimary) (n := p.probeTrials)
  unfold Machine.probe
  rw [hs, hu]
  cases ok with
  | true => exact ⟨true, s1, u1, rfl, rfl, h1⟩
  | false => exact h1.queryTrials

theorem Twin.boundValid (h : Twin s u) : u.boundValid = s.boundValid := by
  obtain ⟨_, _, _, rfl, _⟩ := h; rfl

theorem Twin.dspProbe (h : Twin s u) : Twin (dspProbe p e s) (dspProbe p e u) := by
  obtain ⟨ok, s1, u1, hs, hu, h1⟩ := h.probe (p := p) (e := e)
  unfold Machine.dspProbe
  rw [h.boundValid, hs, hu]
  split
  · exact h.refuse
  · cases ok with
    | true => exact h1.succeed
    | false => exact h1.fail

theorem Twin.dspInit (h : Twin s u) : Twin (dspInit p e s) (dspInit p e u) := by
  obtain ⟨ok, s1, u1, hs, hu, h1⟩ := h.probe (p := p) (e := e)
  unfold Machine.dspInit
  rw [h.boundValid, hs, hu]
  split
  · exact h.refuse
  · cases ok with
    | true => exact h1.sendCmds.fbClear.flush.succeed
    | false => exact h1.fail

theorem Twin.dspFlush (h : Twin s u) : Twin (dspFlush p e s) (dspFlush p e u) := by
  unfold Machine.dspFlush
  rw [h.boundValid]
  split
  · exact h.flush.succeed
  · exact h.refuse

theorem Twin.setPixel {x y : Nat} {k : Bool} (h : Twin s u) : Twin (setPixel p x y k s) (setPixel p x y k u) := by
  obtain ⟨ep, raw, tbuf, rfl, hep⟩ := h
  unfold Machine.setPixel
  split <;> exact ⟨ep, raw, tbuf, rfl, hep⟩

theorem Twin.paintPixel {g : Byte} {k : Bool} {r c : Nat} (h : Twin s u) :
    Twin (paintPixel p g k r s c) (paintPixel p g k r u c) := by
  have hcur : u.curX = s.curX ∧ u.curY = s.curY := by obtain ⟨_, _, _, rfl, _⟩ := h; exact ⟨rfl, rfl⟩
  rw [Machine.paintPixel, Machine.paintPixel, hcur.1, hcur.2]
  exact h.setPixel

theorem Twin.paintGlyph {g : Byte} {k : Bool} (h : Twin s u) : Twin (paintGlyph p g k s) (paintGlyph p g k u) :=
  .foldl (f := paintRow p g k)
    (fun _ _ r hrow => .foldl (f := Machine.paintPixel p g k r) (fun _ _ _ hpixel => hpixel.paintPixel) _ hrow) _ h

theorem Twin.dspWriteChar (h : Twin s u) : Twin (dspWriteChar p e s) (dspWriteChar p e u) := by
  have hargs : operandFont u = operandFont s ∧ operandCh u = operandCh s ∧ operandColor u = operandColor s := by
    obtain ⟨_, _, _, rfl, _⟩ := h; exact ⟨rfl, rfl, rfl⟩
  obtain ⟨hfont, hch, hcolor⟩ := hargs
  unfold Machine.dspWriteChar
  rw [hfont, hch, hcolor]
  split
  · exact h.refuse
  · obtain ⟨ep, raw, tbuf, heq, hep⟩ := h.paintGlyph (p := p) (g := glyphCode p (operandCh s)) (k := operandColor s)
    rw [heq]
    exact .succeed ⟨ep, raw, tbuf, rfl, hep⟩

theorem Twin.dspWriteString {codes : List Byte} {font color : Word} (h : Twin s u) :
    Twin (dspWriteString p e codes font color s) (dspWriteString p e codes font color u) := by
  refine .foldl (fun s u ch h => ?_) codes h
  obtain ⟨ep, raw, tbuf, rfl, hep⟩ := h
  exact .dspWriteChar ⟨ep, raw, tbuf, rfl, hep⟩

/-! ## Instructions -/

/-- From states that differ only in scratch an instruction gives states that differ only in scratch. -/
theorem Twin.execFor {i : Instr} {t : State} (hn : p.swNbytes = 5) (h : Twin s u) (hs : execFor p e i s = .next t) :
    ∃ v, execFor p e i u = .next v ∧ Twin t v := by
  cases i
  case busDataTransfer => exact h.busDataTransfer hs
  all_goals
    obtain rfl := Host.Outcome.next.inj hs
    refine ⟨_, rfl, ?_⟩
  case tmrStart => exact h.tmrStartCmd
  case tmrElapsed => exact h.tmrElapsedCmd
  case tmrDelay => exact h.tmrDelayCmd
  case swsRead => exact h.swsRead hn
  case rngMeasure => exact h.rngMeasure
  case dspProbe => exact h.dspProbe
  case dspInit => exact h.dspInit
  case dspClear => exact h.fbClear.succeed
  case dspSetPixel =>
    have hargs : operandX u = operandX s ∧ operandY u = operandY s ∧ operandColor u = operandColor s := by
      obtain ⟨_, _, _, rfl, _⟩ := h; exact ⟨rfl, rfl, rfl⟩
    obtain ⟨hx, hy, hcolor⟩ := hargs
    rw [dspSetPixel, dspSetPixel, hx, hy, hcolor]
    exact h.setPixel.succeed
  case dspSetCursor =>
    obtain ⟨ep, raw, tbuf, rfl, hep⟩ := h
    exact .succeed ⟨ep, raw, tbuf, rfl, hep⟩
  case dspWriteChar => exact h.dspWriteChar
  case dspFlush => exact h.dspFlush
  case dspWriteString => exact h.dspWriteString
  case reserved => exact h.refuse
  case busCmdTransfer => exact h.busWrite
  case busReadyQuery =>
    obtain ⟨ep, raw, tbuf, rfl, hep⟩ := h
    exact ⟨ep, raw, tbuf, rfl, hep⟩
  case swFrame => exact h.swFrame

end

/-- Settles O51: every instruction commutes with a change of the scratch registers. -/
theorem scratchNeverMatters : Obligations.ScratchNeverMatters := by
  intro i s t ep raw tbuf hep h
  rw [exec_eq_execFor] at h
  obtain ⟨v, hv, ep', raw', tbuf', rfl, hep'⟩ := Twin.execFor rfl ⟨ep, raw, tbuf, rfl, hep⟩ h
  exact ⟨ep', raw', tbuf', (exec_eq_execFor ..).trans hv, hep'⟩

end Sys2Proof.Machine

/-! The sequencer, row by row, reaches what the command-level meaning gives: the delays and the waits first, then each
engine's phases in their order (R28, R160, R161). -/

namespace Sys2Proof.Machine

open Sys2Proof.Safety

/-- Some number of rows leads from `s` to `t`. -/
def Reaches (p : Params) (e : Env) (s t : State) : Prop :=
  ∃ n, seqRun p e n s = t

/-- `s` with the sequencer in a phase. -/
def inPhase (ph : Seq) (s : State) : State :=
  { s with seq := ph }

/-- `s` at tick `now`. -/
def atTick (now : Nat) (s : State) : State :=
  { s with time := now }

/-- What the rows need of a configuration: no delay and no wait reaches the wrap of the counter, a frame is five bytes of eight
bits, and each address has a trial (R8, R10, R11). -/
structure Timed (p : Params) : Prop where
  bytes : p.swNbytes = 5
  bits : p.swNbits = 8
  wrap : p.tmrWrap = 65536
  startLow : p.swStartLow < p.tmrWrap
  startHigh : p.swStartHigh < p.tmrWrap
  sample : p.swSampleDelay < p.tmrWrap
  settle : p.rngSettle < p.tmrWrap
  pulse : p.rngPulse < p.tmrWrap
  response : p.swTimeout < p.tmrWrap
  echo : p.rngTimeout * 2 + p.pollSlack < p.tmrWrap
  trials : 1 ≤ p.probeTrials

theorem errorUnless_eq_nil {holds : Bool} {err : ConfigError} : errorUnless holds err = [] ↔ holds = true := by
  cases holds <;> simp [errorUnless]

theorem timed_of_legal {p : Params} (h : configErrors p = []) : Timed p := by
  simp only [configErrors, List.append_eq_nil_iff, errorUnless_eq_nil, Bool.and_eq_true, decide_eq_true_eq, beq_iff_eq,
    Config.tmrWrap, Config.swNbytes, Config.swNbits] at h
  obtain ⟨⟨⟨⟨⟨⟨⟨⟨⟨⟨⟨⟨⟨_, _⟩, _⟩, _⟩, hcounter⟩, hframe⟩, _⟩, hdelays⟩, hwaits⟩, _⟩, _⟩, htrials⟩, _⟩, _⟩ := h
  obtain ⟨hwrap, _⟩ := hcounter
  obtain ⟨hbytes, hbits⟩ := hframe
  obtain ⟨⟨⟨⟨hlow, hhigh⟩, hsample⟩, hsettle⟩, hpulse⟩ := hdelays
  obtain ⟨hecho, hresponse⟩ := hwaits
  exact ⟨hbytes, hbits, hwrap, by omega, by omega, by omega, by omega, by omega, by omega, hecho, htrials⟩

section

variable {p : Params} {e : Env} {s t u : State}

namespace Reaches

theorem refl (s : State) : Reaches p e s s :=
  ⟨0, rfl⟩

/-- One row, then some more. -/
theorem row (h : Reaches p e (seqStep p e s) t) : Reaches p e s t := by
  obtain ⟨n, hn⟩ := h
  exact ⟨n + 1, hn⟩

theorem trans (h1 : Reaches p e s t) (h2 : Reaches p e t u) : Reaches p e s u := by
  obtain ⟨n, rfl⟩ := h1
  induction n generalizing s with
  | zero => exact h2
  | succ n ih => exact row (ih h2)

end Reaches

/-! ## Delays and waits -/

/-- A delay phase entered with the counter restarted leaves after the delay of its length (R124, R161). -/
theorem delay_reaches {ph : Seq} {n : Nat} {done : State → State} (hn : n < p.tmrWrap)
    (hrow : ∀ now, seqStep p e (atTick now (restartIn ph s)) = delayPhase p e n done (atTick now (restartIn ph s))) :
    Reaches p e (restartIn ph s) (done (inPhase ph (delay p e n s))) := by
  have hcount : ∀ k, k ≤ n → elapsed p (atTick (s.time + k) (restartIn ph s)) = k := by
    intro k hk
    have h := counterAt_of_lt p s.time (s.time + k) (Nat.le_add_right ..) (by omega)
    rwa [Nat.add_sub_cancel_left] at h
  have wait : ∀ m k, k + m = n → Reaches p e (atTick (s.time + k) (restartIn ph s)) (done (inPhase ph (delay p e n s))) := by
    intro m
    induction m with
    | zero =>
      rintro k rfl
      refine .row ?_
      rw [hrow, delayPhase, hcount k (le_refl _), if_neg (by omega)]
      exact .refl _
    | succ m ih =>
      intro k hk
      refine .row ?_
      rw [hrow, delayPhase, hcount k (by omega), if_pos (by omega)]
      exact ih (k + 1) (by omega)
  exact wait n 0 (Nat.zero_add n)

/-- A wait phase leaves as the wait it carries out ends (R126, R161). -/
theorem waitUntil_reaches {src : Nat → Bool} {v : Bool} {budget : Nat} {met timeout : State → State}
    (hb : budget < p.tmrWrap) (h1 : s.epoch ≤ s.time) (h2 : s.time ≤ s.epoch + budget)
    (hrow : ∀ now, seqStep p e (atTick now s) = waitPhase p e src v true budget met timeout (atTick now s)) :
    Reaches p e s (cond (waitLevelUntil p e src v budget s).1 (met (waitLevelUntil p e src v budget s).2)
      (timeout (waitLevelUntil p e src v budget s).2)) := by
  have poll : ∀ fuel now, s.epoch ≤ now → now ≤ s.epoch + budget → s.epoch + budget < now + fuel →
      Reaches p e (atTick now s) (cond (scan p src v s.epoch budget fuel now).1
        (met (latency p e (atTick (scan p src v s.epoch budget fuel now).2 s)))
        (timeout (atTick (scan p src v s.epoch budget fuel now).2 s))) := by
    intro fuel
    induction fuel with
    | zero => intro now _ _ hf; omega
    | succ n ih =>
      intro now hge hle hf
      have hcount : counterAt p s.epoch now = now - s.epoch := counterAt_of_lt _ _ _ hge (by omega)
      have row : seqStep p e (atTick now s) =
          if src now = v then met (latency p e (atTick now s))
          else if budget ≤ now - s.epoch then timeout (atTick now s) else atTick (now + 1) s := by
        rw [hrow, ← hcount]
        simp only [waitPhase, true_and]
        rfl
      refine .row ?_
      unfold scan
      rw [hcount, row]
      by_cases hv : src now = v
      · simp only [if_pos hv]; exact .refl _
      · by_cases hbudget : budget ≤ now - s.epoch
        · simp only [if_neg hv, if_pos hbudget]; exact .refl _
        · simp only [if_neg hv, if_neg hbudget]
          exact ih (now + 1) (by omega) (by omega) (by omega)
  have h := poll (budget + 1) s.time h1 h2 (by omega)
  unfold waitLevelUntil
  generalize scan p src v s.epoch budget (budget + 1) s.time = r at h ⊢
  rcases r with ⟨_ | _, d⟩ <;> exact h

/-- The phase the sequencer is in does not reach a wait. -/
theorem waitLevelUntil_inPhase (src : Nat → Bool) (v : Bool) (budget : Nat) (ph : Seq) :
    waitLevelUntil p e src v budget (inPhase ph s) = Prod.map id (inPhase ph) (waitLevelUntil p e src v budget s) := by
  simp only [waitLevelUntil, inPhase]
  rcases scan p src v s.epoch budget (budget + 1) s.time with ⟨_ | _, d⟩ <;> rfl

/-- A wait phase entered with the counter restarted leaves as `wait_level` ends (R126, R161). -/
theorem wait_reaches {ph : Seq} {src : Nat → Bool} {v : Bool} {budget : Nat} {met timeout : State → State}
    (hb : budget < p.tmrWrap)
    (hrow : ∀ now, seqStep p e (atTick now (restartIn ph s)) =
      waitPhase p e src v true budget met timeout (atTick now (restartIn ph s))) :
    Reaches p e (restartIn ph s) (cond (waitLevel p e src v budget s).1 (met (inPhase ph (waitLevel p e src v budget s).2))
      (timeout (inPhase ph (waitLevel p e src v budget s).2))) := by
  have h := waitUntil_reaches (s := inPhase ph (tmrStart s)) hb (le_refl _) (Nat.le_add_right ..) hrow
  rw [waitLevelUntil_inPhase] at h
  exact h

end

end Sys2Proof.Machine

/-! The sequencer, engine by engine (R160, R161): each command's phases reach the result of its pseudocode. -/

namespace Sys2Proof.Machine

section

variable {p : Params} {e : Env} {s t u : State}

/-! ## The phase a state is in reaches no operation that sets its own -/

@[simp] theorem restartIn_inPhase (ph ph' : Seq) (s : State) : restartIn ph (inPhase ph' s) = restartIn ph s := rfl

@[simp] theorem swsCheck_inPhase (ph : Seq) (s : State) : swsCheck e (inPhase ph s) = swsCheck e s := by
  unfold swsCheck; rfl

@[simp] theorem byteEnds_inPhase (k : Nat) (b : Byte) (ph : Seq) (s : State) :
    byteEnds p k b (inPhase ph s) = byteEnds p k b s := by
  unfold byteEnds; split <;> rfl

@[simp] theorem enterChunk_inPhase (n : Nat) (ph : Seq) (s : State) : enterChunk p e n (inPhase ph s) = enterChunk p e n s := by
  unfold enterChunk; split <;> rfl

@[simp] theorem enterWindow_inPhase (q : Nat) (ph : Seq) (s : State) :
    enterWindow p e q (inPhase ph s) = enterWindow p e q s := by
  unfold enterWindow; split
  · rfl
  · exact enterChunk_inPhase ..

@[simp] theorem enterConfig_inPhase (q : Nat) (ph : Seq) (s : State) : enterConfig p q (inPhase ph s) = enterConfig p q s := by
  unfold enterConfig; split <;> rfl

@[simp] theorem enterGlyph_inPhase (r c : Nat) (ph : Seq) (s : State) :
    enterGlyph p e r c (inPhase ph s) = enterGlyph p e r c s := by
  unfold enterGlyph; split
  · rfl
  · split <;> rfl

/-! ## Timer -/

theorem tmrDelay_reaches (hp : Timed p) : Reaches p e (seqBegin p e .tmrDelay s) (tmrDelayCmd p e s) := by
  have hus : operandUs s < p.tmrWrap := by rw [hp.wrap]; exact s.arg0.isLt
  have h := delay_reaches (p := p) (e := e) (s := s) (n := operandUs s) (ph := .tmrWait)
    (done := fun s => succeed e { s with epochValid := false }) hus fun _ => rfl
  exact h

/-! ## Single-wire engine -/

/-- The start pulse (R143). -/
theorem swsStart_reaches (hp : Timed p) : Reaches p e (swsBegin s) (restartIn .swRespLow1 (swsStart p e s)) := by
  have low := delay_reaches (p := p) (e := e) (ph := .swStartLow) (s := { s with epochValid := false, swOe := true })
    (done := fun s => restartIn .swStartHigh { s with swOe := false }) hp.startLow fun _ => rfl
  have high := delay_reaches (p := p) (e := e) (ph := .swStartHigh) (done := restartIn .swRespLow1)
    (s := { delay p e p.swStartLow { s with epochValid := false, swOe := true } with swOe := false }) hp.startHigh fun _ => rfl
  unfold swsStart
  generalize delay p e p.swStartLow { s with epochValid := false, swOe := true } = released at low high ⊢
  exact low.trans high

/-- The response check (R144). -/
theorem swsRespond_reaches (hp : Timed p) :
    Reaches p e (restartIn .swRespLow1 s) (cond (swsRespond p e s).1
      (restartIn (.swBitWaitHigh 0 0 0) (swsRespond p e s).2) (fail e (swsRespond p e s).2)) := by
  have low1 := wait_reaches (p := p) (e := e) (s := s) (ph := .swRespLow1) (src := swLine e s) (v := false)
    (met := restartIn .swRespHigh) (timeout := fail e) hp.response fun _ => rfl
  unfold swsRespond
  generalize waitLevel p e (swLine e s) false p.swTimeout s = r at low1 ⊢
  rcases r with ⟨_ | _, s1⟩
  · exact low1
  · refine low1.trans ?_
    have high := wait_reaches (p := p) (e := e) (s := s1) (ph := .swRespHigh) (src := swLine e s1) (v := true)
      (met := restartIn .swRespLow2) (timeout := fail e) hp.response fun _ => rfl
    dsimp only
    generalize waitLevel p e (swLine e s1) true p.swTimeout s1 = r at high ⊢
    rcases r with ⟨_ | _, s2⟩
    · exact high
    · exact high.trans (wait_reaches (p := p) (e := e) (s := s2) (ph := .swRespLow2) (src := swLine e s2) (v := false)
        (met := restartIn (.swBitWaitHigh 0 0 0)) (timeout := fail e) hp.response fun _ => rfl)

/-- The bits of a byte, to where the byte ends (R146, R147, R148). -/
theorem readBits_reaches (hp : Timed p) (hbounded : p.lowWaitBounded = true) (k n : Nat) :
    ∀ (i : Nat) (b : Byte) (s : State), i + n = p.swNbits → 0 < n →
      Reaches p e (restartIn (.swBitWaitHigh k i b) s) (byteEnds p k (readBits p e n b s).1 (readBits p e n b s).2) := by
  induction n with
  | zero => intro i b s _ h; exact absurd h (Nat.lt_irrefl 0)
  | succ n ih =>
    intro i b s hi _
    have high := wait_reaches (p := p) (e := e) (s := s) (ph := .swBitWaitHigh k i b) (src := swLine e s) (v := true)
      (met := restartIn (.swBitDelay k i b)) (timeout := byteEnds p k b) hp.response fun _ => rfl
    unfold readBits
    generalize waitLevel p e (swLine e s) true p.swTimeout s = r at high ⊢
    rcases r with ⟨_ | _, s1⟩
    · simpa using high
    · refine high.trans ?_
      have sample := delay_reaches (p := p) (e := e) (s := s1) (ph := .swBitDelay k i b)
        (done := inPhase (.swBitSample k i b)) hp.sample fun _ => rfl
      refine sample.trans (.row ?_)
      dsimp only
      generalize delay p e p.swSampleDelay s1 = s2
      have hbit : p.swNbits - 1 - i = n := by omega
      have row : seqStep p e (inPhase (.swBitSample k i b) (inPhase (.swBitDelay k i b) s2)) =
          restartIn (.swBitWaitLow k i (withBit b n (swLine e s2 s2.time))) s2 := by
        rw [← hbit]; rfl
      rw [row]
      generalize withBit b n (swLine e s2 s2.time) = b2
      have low := wait_reaches (p := p) (e := e) (s := s2) (ph := .swBitWaitLow k i b2) (src := swLine e s2) (v := false)
        (met := fun s => if i + 1 < p.swNbits then restartIn (.swBitWaitHigh k (i + 1) b2) s else byteEnds p k b2 s)
        (timeout := byteEnds p k b2) hp.response (fun _ => by rw [← hbounded]; rfl)
      generalize waitLevel p e (swLine e s2) false p.swTimeout s2 = r at low ⊢
      rcases r with ⟨_ | _, s3⟩
      · simpa using low
      · refine low.trans ?_
        by_cases hn : n = 0
        · subst hn
          rw [cond_true, if_neg (by omega), byteEnds_inPhase]
          exact .refl _
        · rw [cond_true, if_pos (by omega), restartIn_inPhase]
          exact ih (i + 1) b2 s3 (by omega) (by omega)

/-- The bytes from `k` on, to the checksum (R145). -/
theorem readFrame_reaches (hp : Timed p) (hbounded : p.lowWaitBounded = true) (m : Nat) :
    ∀ (k : Nat) (s : State), k + (m + 1) = p.swNbytes →
      Reaches p e (restartIn (.swBitWaitHigh k 0 0) s) (inPhase .swCheck (readFrame p e (List.range' k (m + 1)) s)) := by
  induction m with
  | zero =>
    intro k s hk
    have byte := readBits_reaches (e := e) hp hbounded k p.swNbits 0 0 s (Nat.zero_add _) (by rw [hp.bits]; decide)
    rw [byteEnds, if_neg (by omega)] at byte
    exact byte
  | succ m ih =>
    intro k s hk
    have byte := readBits_reaches (e := e) hp hbounded k p.swNbits 0 0 s (Nat.zero_add _) (by rw [hp.bits]; decide)
    rw [byteEnds, if_pos (by omega)] at byte
    exact byte.trans (ih (k + 1) _ (by omega))

theorem swsRead_reaches (hp : Timed p) (hbounded : p.lowWaitBounded = true) :
    Reaches p e (swsBegin s) (swsReadCmd p e s) := by
  refine (swsStart_reaches hp).trans ?_
  have respond := swsRespond_reaches (p := p) (e := e) (s := swsStart p e s) hp
  unfold swsReadCmd
  generalize swsRespond p e (swsStart p e s) = r at respond ⊢
  rcases r with ⟨_ | _, s1⟩
  · exact respond
  · have frame := readFrame_reaches (e := e) hp hbounded 4 0 s1 (by rw [hp.bytes])
    refine (respond.trans frame).trans (.row ?_)
    dsimp only
    rw [hp.bytes, List.range_eq_range', ← swsCheck_inPhase .swCheck]
    exact .refl _

/-! ## Ranging engine -/

/-- The trigger pulse (R172, R173). -/
theorem rngTrigger_reaches (hp : Timed p) :
    Reaches p e (restartIn .rngSettle { s with epochValid := false, trig := false })
      (inPhase .rngWaitRise (rngTrigger p e s)) := by
  have settle := delay_reaches (p := p) (e := e) (ph := .rngSettle) (s := { s with epochValid := false, trig := false })
    (done := fun s => restartIn .rngPulse { s with trig := true }) hp.settle fun _ => rfl
  have pulse := delay_reaches (p := p) (e := e) (ph := .rngPulse)
    (done := fun s => restartIn .rngWaitRise { s with trig := false })
    (s := { delay p e p.rngSettle { s with epochValid := false, trig := false } with trig := true }) hp.pulse fun _ => rfl
  unfold rngTrigger
  generalize delay p e p.rngSettle { s with epochValid := false, trig := false } = settled at settle pulse ⊢
  exact settle.trans pulse

/-- After the rise the counter has the ticks since the pulse, at most the budget and the latency (R127, R176). -/
theorem echoRise_bounds (hb : p.rngTimeout < p.tmrWrap) :
    (waitLevel p e e.echo true p.rngTimeout s).2.epoch = s.time ∧
      s.time ≤ (waitLevel p e e.echo true p.rngTimeout s).2.time ∧
      (waitLevel p e e.echo true p.rngTimeout s).2.time ≤ s.time + p.rngTimeout + p.pollSlack := by
  have hslack : e.latency s.draws % (p.pollSlack + 1) ≤ p.pollSlack := Nat.le_of_lt_succ (Nat.mod_lt _ (Nat.succ_pos _))
  rcases waitLevel_cases p e e.echo true s hb with ⟨d, h1, h2, _, _, h⟩ | ⟨_, h⟩ <;> rw [h]
  · refine ⟨rfl, le_trans h1 (Nat.le_add_right ..), ?_⟩
    rw [latency_time]
    exact Nat.add_le_add h2 hslack
  · exact ⟨rfl, Nat.le_add_right .., Nat.le_add_right ..⟩

/-- The two echo waits and the conversion (R174 to R177, R179). -/
theorem rngEcho_reaches (hp : Timed p) :
    Reaches p e (inPhase .rngWaitRise (tmrStart s))
      (succeed e { (rngEcho p e (tmrStart s)).2 with result := (rngEcho p e (tmrStart s)).1 }) := by
  have hwrap := hp.echo
  have rise := wait_reaches (p := p) (e := e) (s := s) (ph := .rngWaitRise) (src := e.echo) (v := true)
    (met := fun s => inPhase (.rngWaitFall (elapsed p s)) s) (timeout := fun s => succeed e { s with result := p.rngNoEcho })
    (budget := p.rngTimeout) (by omega) fun _ => rfl
  obtain ⟨hepoch, hge, hle⟩ := echoRise_bounds (p := p) (e := e) (s := s) (by omega)
  unfold rngEcho
  change Reaches p e (restartIn .rngWaitRise s) _
  rw [waitLevel] at rise hepoch hge hle
  generalize waitLevelUntil p e e.echo true p.rngTimeout (tmrStart s) = r at rise hepoch hge hle ⊢
  rcases r with ⟨_ | _, s1⟩
  · exact rise
  · refine rise.trans ?_
    dsimp only [cond_true] at hepoch hge hle ⊢
    have hcount : elapsed p s1 = s1.time - s1.epoch := counterAt_of_lt _ _ _ (by omega) (by omega)
    have fall := waitUntil_reaches (p := p) (e := e) (s := inPhase (.rngWaitFall (elapsed p s1)) s1) (src := e.echo) (v := false)
      (met := fun s => inPhase (.rngConvert (counterDiff p (elapsed p s) (elapsed p s1))) s)
      (timeout := fun s => succeed e { s with result := p.rngOutOfRange })
      (budget := elapsed p s1 + p.rngTimeout) (by omega) (by simp only [inPhase]; omega) (by simp only [inPhase]; omega)
      fun _ => rfl
    rw [waitLevelUntil_inPhase] at fall
    generalize waitLevelUntil p e e.echo false (elapsed p s1 + p.rngTimeout) s1 = r at fall ⊢
    rcases r with ⟨_ | _, s2⟩
    · exact fall
    · exact fall.trans (.row (.refl _))

theorem rngMeasure_reaches (hp : Timed p) : Reaches p e (seqBegin p e .rngMeasure s) (rngMeasure p e s) := by
  unfold seqBegin rngMeasure
  dsimp only
  split
  · exact (rngTrigger_reaches hp).trans (rngEcho_reaches hp)
  · exact .refl _

/-! ## Bus commands -/

theorem sendCmds_inPhase (cs : List Byte) (ph : Seq) (s : State) :
    sendCmds p e cs (inPhase ph s) = inPhase ph (sendCmds p e cs s) := by
  unfold sendCmds
  induction cs generalizing s with
  | nil => rfl
  | cons c cs ih => exact ih (sendCmd p e c s)

/-- The data transfers from `n` on (R242). -/
theorem enterChunk_reaches (m : Nat) : ∀ (n : Nat) (s : State), n + m = chunkCount p →
    Reaches p e (enterChunk p e n s) (succeed e ((List.range' n m).foldl (sendChunk p e) s)) := by
  induction m with
  | zero =>
    intro n s hn
    rw [enterChunk, if_neg (by omega)]
    exact .refl _
  | succ m ih =>
    intro n s hn
    rw [enterChunk, if_pos (by omega)]
    have row : seqStep p e (inPhase (.dspChunk n) s) = enterChunk p e (n + 1) (sendChunk p e s n) :=
      enterChunk_inPhase (n + 1) (.dspChunk n) (sendChunk p e s n)
    exact .row (row ▸ ih (n + 1) (sendChunk p e s n) (by omega))

/-- The window commands from `q` on, then every chunk (R240). -/
theorem enterWindow_reaches (m : Nat) : ∀ (q : Nat) (s : State), q + m = p.windowSeq.length →
    Reaches p e (enterWindow p e q s)
      (succeed e ((List.range (chunkCount p)).foldl (sendChunk p e) (sendCmds p e (p.windowSeq.drop q) s))) := by
  induction m with
  | zero =>
    intro q s hq
    rw [enterWindow, if_neg (by omega), List.drop_eq_nil_of_le (by omega), List.range_eq_range']
    exact enterChunk_reaches _ 0 s (Nat.zero_add _)
  | succ m ih =>
    intro q s hq
    have hlt : q < p.windowSeq.length := by omega
    rw [enterWindow, if_pos hlt]
    have row : seqStep p e (inPhase (.dspWindow q) s) = enterWindow p e (q + 1) (sendCmds p e [p.windowSeq[q]] s) := by
      have h : seqStep p e (inPhase (.dspWindow q) s) =
        enterWindow p e (q + 1) (sendCmds p e (p.windowSeq[q]?).toList (inPhase (.dspWindow q) s)) := rfl
      rw [h, sendCmds_inPhase, enterWindow_inPhase, List.getElem?_eq_getElem hlt]
      rfl
    rw [List.drop_eq_getElem_cons hlt]
    exact .row (row ▸ ih (q + 1) (sendCmds p e [p.windowSeq[q]] s) (by omega))

theorem flush_reaches : Reaches p e (enterWindow p e 0 s) (succeed e (flush p e s)) :=
  enterWindow_reaches _ 0 s (Nat.zero_add _)

theorem dspFlush_reaches : Reaches p e (seqBegin p e .dspFlush s) (dspFlush p e s) := by
  unfold seqBegin dspFlush
  dsimp only
  split
  · exact flush_reaches
  · exact .refl _

/-- The configuration commands from `q` on, to the clear (R235). -/
theorem enterConfig_reaches (m : Nat) : ∀ (q : Nat) (s : State), q + m = p.initSeq.length →
    Reaches p e (enterConfig p q s) (inPhase (.dspClearing true) (sendCmds p e (p.initSeq.drop q) s)) := by
  induction m with
  | zero =>
    intro q s hq
    rw [enterConfig, if_neg (by omega), List.drop_eq_nil_of_le (by omega)]
    exact .refl _
  | succ m ih =>
    intro q s hq
    have hlt : q < p.initSeq.length := by omega
    rw [enterConfig, if_pos hlt]
    have row : seqStep p e (inPhase (.dspConfig q) s) = enterConfig p (q + 1) (sendCmds p e [p.initSeq[q]] s) := by
      have h : seqStep p e (inPhase (.dspConfig q) s) =
        enterConfig p (q + 1) (sendCmds p e (p.initSeq[q]?).toList (inPhase (.dspConfig q) s)) := rfl
      rw [h, sendCmds_inPhase, enterConfig_inPhase, List.getElem?_eq_getElem hlt]
      rfl
    rw [List.drop_eq_getElem_cons hlt]
    exact .row (row ▸ ih (q + 1) (sendCmds p e [p.initSeq[q]] s) (by omega))

/-- What follows a successful probe: the configuration, the clear and a flush inside `DSP_INIT`, nothing else (R230, R235). -/
def afterProbe (p : Params) (e : Env) (init : Bool) (s : State) : State :=
  succeed e (if init then flush p e (fbClear p (sendCmds p e p.initSeq s)) else s)

theorem configuration_reaches : Reaches p e (enterConfig p 0 s) (afterProbe p e true s) := by
  refine (enterConfig_reaches _ 0 s (Nat.zero_add _)).trans (.row ?_)
  have row : seqStep p e (inPhase (.dspClearing true) (sendCmds p e (p.initSeq.drop 0) s)) =
    enterWindow p e 0 (fbClear p (sendCmds p e p.initSeq s)) :=
    enterWindow_inPhase 0 (.dspClearing true) (fbClear p (sendCmds p e p.initSeq s))
  rw [row]
  exact flush_reaches

/-- The address a trial queries. -/
def candidate (p : Params) (second : Bool) : Addr7 :=
  if second then p.addrSecondary else p.addrPrimary

/-- What follows the last failed trial of an address: the secondary address, or failure (R230). -/
def afterTrials (e : Env) (init second : Bool) (s : State) : State :=
  if second then fail e s else inPhase (.dspProbe init true 0) s

/-- A query of the sequencer is answered as it is at command level. -/
theorem busReady_inPhase {a : Addr7} {ph : Seq} {r : Bool} (h : busReady e a s = (r, u)) :
    busReady e a (inPhase ph s) = (r, inPhase ph u) := by
  have heq : busReady e a (inPhase ph s) = Prod.map id (inPhase ph) (busReady e a s) := rfl
  rw [heq, h]; rfl

/-- From an acknowledged trial the command goes on bound (R231). -/
theorem trial_acked {init second : Bool} {n : Nat} (h : busReady e (candidate p second) s = (true, u)) :
    Reaches p e (inPhase (.dspProbe init second n) s)
      (afterProbe p e init { u with boundValid := true, boundAddr := candidate p second }) := by
  have hready := busReady_inPhase (ph := .dspProbe init second n) h
  have row : seqStep p e (inPhase (.dspProbe init second n) s) =
      if init then enterConfig p 0 { u with boundValid := true, boundAddr := candidate p second }
      else succeed e { u with boundValid := true, boundAddr := candidate p second } := by
    change probeRow p e init second n _ = _
    unfold candidate at hready ⊢
    unfold probeRow
    dsimp only
    rw [hready, ← enterConfig_inPhase 0 (.dspProbe init second n)]
    rfl
  refine .row (row ▸ ?_)
  cases init with
  | true => exact configuration_reaches
  | false => exact .refl _

/-- After a failed trial the next row is `probeNext` (R230). -/
theorem trial_failed {init second : Bool} {n : Nat} (h : busReady e (candidate p second) s = (false, u)) :
    Reaches p e (inPhase (.dspProbe init second n) s)
      (if n + 1 < p.probeTrials then inPhase (.dspProbe init second (n + 1)) u else afterTrials e init second u) := by
  have hready := busReady_inPhase (ph := .dspProbe init second n) h
  have row : seqStep p e (inPhase (.dspProbe init second n) s) =
      if n + 1 < p.probeTrials then inPhase (.dspProbe init second (n + 1)) u else afterTrials e init second u := by
    change probeRow p e init second n _ = _
    unfold candidate at hready
    unfold probeRow
    dsimp only
    rw [hready]
    rfl
  exact .row (row ▸ .refl _)

/-- The trials of one address from trial `n` on: bound, or the next address, or failure (R230, R231). -/
theorem queryTrials_reaches (init second : Bool) (m : Nat) : ∀ (n : Nat) (s : State), n + (m + 1) = p.probeTrials →
    Reaches p e (inPhase (.dspProbe init second n) s)
      (cond (queryTrials e (candidate p second) (m + 1) s).1
        (afterProbe p e init (queryTrials e (candidate p second) (m + 1) s).2)
        (afterTrials e init second (queryTrials e (candidate p second) (m + 1) s).2)) := by
  induction m with
  | zero =>
    intro n s hn
    unfold queryTrials
    rcases hr : busReady e (candidate p second) s with ⟨_ | _, u⟩
    · have failed := trial_failed (p := p) (init := init) (n := n) hr
      rw [if_neg (by omega)] at failed
      exact failed
    · exact trial_acked hr
  | succ m ih =>
    intro n s hn
    unfold queryTrials
    rcases hr : busReady e (candidate p second) s with ⟨_ | _, u⟩
    · have failed := trial_failed (p := p) (init := init) (n := n) hr
      rw [if_pos (by omega)] at failed
      exact failed.trans (ih (n + 1) u (by omega))
    · exact trial_acked hr

/-- All trials of the primary address, then all of the secondary (R230, R231). -/
theorem probe_reaches (hp : Timed p) (init : Bool) :
    Reaches p e (inPhase (.dspProbe init false 0) s)
      (cond (probe p e s).1 (afterProbe p e init (probe p e s).2) (fail e (probe p e s).2)) := by
  obtain ⟨m, hm⟩ : ∃ m, p.probeTrials = m + 1 := Nat.exists_eq_add_of_le' hp.trials
  have hprimary : candidate p false = p.addrPrimary := rfl
  have primary := queryTrials_reaches (p := p) (e := e) init false m 0 s (by omega)
  rw [hprimary] at primary
  unfold probe
  rw [hm]
  generalize queryTrials e p.addrPrimary (m + 1) s = r at primary ⊢
  rcases r with ⟨_ | _, s1⟩
  · exact primary.trans (queryTrials_reaches (p := p) init true m 0 s1 (by omega))
  · exact primary

theorem dspProbe_reaches (hp : Timed p) : Reaches p e (seqBegin p e .dspProbe s) (dspProbe p e s) := by
  have trials := probe_reaches (e := e) (s := s) hp false
  unfold seqBegin dspProbe
  generalize probe p e s = r at trials ⊢
  dsimp only
  split
  · exact .refl _
  · rcases r with ⟨_ | _, s1⟩ <;> exact trials

theorem dspInit_reaches (hp : Timed p) : Reaches p e (seqBegin p e .dspInit s) (dspInit p e s) := by
  have trials := probe_reaches (e := e) (s := s) hp true
  unfold seqBegin dspInit
  generalize probe p e s = r at trials ⊢
  dsimp only
  split
  · exact .refl _
  · rcases r with ⟨_ | _, s1⟩ <;> exact trials

/-! ## Framebuffer commands -/

theorem dspClear_reaches : Reaches p e (seqBegin p e .dspClear s) (dspClear p e s) :=
  .row (.refl _)

theorem setPixel_inPhase (x y : Nat) (k : Bool) (ph : Seq) (s : State) :
    setPixel p x y k (inPhase ph s) = inPhase ph (setPixel p x y k s) := by
  unfold setPixel; split <;> rfl

theorem paintPixel_inPhase (g : Byte) (k : Bool) (r c : Nat) (ph : Seq) (s : State) :
    paintPixel p g k r (inPhase ph s) c = inPhase ph (paintPixel p g k r s c) :=
  setPixel_inPhase ..

/-- What a glyph box is painted with: the glyph and the colour of the operands (R200). -/
def glyphOf (p : Params) (s : State) : Byte × Bool :=
  (glyphCode p (operandCh s), operandColor s)

theorem glyphOf_paintPixel (g : Byte) (k : Bool) (r c : Nat) (s : State) :
    glyphOf p (paintPixel p g k r s c) = glyphOf p s := by
  rw [paintPixel, setPixel_frame]; rfl

theorem glyphOf_paintRow (g : Byte) (k : Bool) (r : Nat) (s : State) : glyphOf p (paintRow p g k s r) = glyphOf p s := by
  rw [paintRow_frame]; rfl

/-- The pixels of row `r` from column `c` on (R200). -/
theorem paintRow_reaches {g : Byte} {k : Bool} {r : Nat} (hr : r < p.fontH) (m : Nat) :
    ∀ (c : Nat) (s : State), c + m = p.fontW → glyphOf p s = (g, k) →
      Reaches p e (enterGlyph p e r c s) (enterGlyph p e r p.fontW ((List.range' c m).foldl (paintPixel p g k r) s)) := by
  induction m with
  | zero => rintro c s rfl _; exact .refl _
  | succ m ih =>
    intro c s hc hg
    obtain ⟨rfl, rfl⟩ := Prod.mk.inj hg
    have row : seqStep p e (inPhase (.dspGlyph r c) s) =
        enterGlyph p e r (c + 1) (paintPixel p (glyphCode p (operandCh s)) (operandColor s) r s c) := by
      have h : seqStep p e (inPhase (.dspGlyph r c) s) = enterGlyph p e r (c + 1)
        (paintPixel p (glyphCode p (operandCh s)) (operandColor s) r (inPhase (.dspGlyph r c) s) c) := rfl
      rw [h, paintPixel_inPhase, enterGlyph_inPhase]
    rw [enterGlyph, if_pos ⟨hr, by omega⟩]
    exact .row (row ▸ ih (c + 1) _ (by omega) (glyphOf_paintPixel ..))

/-- Past the last column the next row begins, where there is one (R200). -/
theorem enterGlyph_fontW (r : Nat) (s : State) : enterGlyph p e r p.fontW s = enterGlyph p e (r + 1) 0 s := by
  unfold enterGlyph
  rw [if_neg (fun h => Nat.lt_irrefl _ h.2)]
  split
  · rfl
  · next h => rw [if_neg (fun h' => h ⟨by omega, h'.2⟩)]

/-- The rows of a glyph box from row `r` on (R200, R202). -/
theorem paintGlyph_reaches {g : Byte} {k : Bool} (m : Nat) : ∀ (r : Nat) (s : State), r + m = p.fontH → glyphOf p s = (g, k) →
    Reaches p e (enterGlyph p e r 0 s) (succeed e (advanceCursor p ((List.range' r m).foldl (paintRow p g k) s))) := by
  induction m with
  | zero =>
    intro r s hr _
    rw [enterGlyph, if_neg (by omega), if_neg (by omega)]
    exact .refl _
  | succ m ih =>
    intro r s hr hg
    have row := paintRow_reaches (p := p) (e := e) (r := r) (by omega) p.fontW 0 s (Nat.zero_add _) hg
    rw [enterGlyph_fontW, ← List.range_eq_range'] at row
    exact row.trans (ih (r + 1) (paintRow p g k s r) (by omega) ((glyphOf_paintRow ..).trans hg))

theorem dspWriteChar_reaches : Reaches p e (seqBegin p e .dspWriteChar s) (dspWriteChar p e s) := by
  unfold seqBegin dspWriteChar paintGlyph
  dsimp only
  split
  · exact .refl _
  · rw [List.range_eq_range']
    exact paintGlyph_reaches p.fontH 0 s (Nat.zero_add _) rfl

/-! ## Every command -/

/-- A command begun on the sequencer reaches its result (R161). -/
theorem command_reaches (hp : Timed p) (hbounded : p.lowWaitBounded = true) {i : Instr} (hi : (opcode? i).isSome = true) :
    ∃ t, execFor p e i s = .next t ∧ Reaches p e (seqBegin p e i s) t := by
  cases i with
  | tmrStart | tmrElapsed | dspSetPixel | dspSetCursor | reserved => exact ⟨_, rfl, .refl _⟩
  | tmrDelay => exact ⟨_, rfl, tmrDelay_reaches hp⟩
  | swsRead => exact ⟨_, by rw [execFor, swsRead, if_pos hbounded], swsRead_reaches hp hbounded⟩
  | rngMeasure => exact ⟨_, rfl, rngMeasure_reaches hp⟩
  | dspProbe => exact ⟨_, rfl, dspProbe_reaches hp⟩
  | dspInit => exact ⟨_, rfl, dspInit_reaches hp⟩
  | dspClear => exact ⟨_, rfl, dspClear_reaches⟩
  | dspWriteChar => exact ⟨_, rfl, dspWriteChar_reaches⟩
  | dspFlush => exact ⟨_, rfl, dspFlush_reaches⟩
  | dspWriteString | busCmdTransfer | busDataTransfer | busReadyQuery | swFrame => exact absurd hi nofun

/-- A `CMD` write selects a host command (R91). -/
theorem decodeCmd_isCommand (w : Word) : (opcode? (decodeCmd w)).isSome = true := by
  unfold decodeCmd decodeOpcode
  split <;> rfl

end

/-- Settles O58: each engine's phases reach the result of its pseudocode, in which the sequencer is idle again. -/
theorem sequencerReachesTheCommandResult : Obligations.SequencerReachesTheCommandResult := by
  intro p e w s hlegal hbounded hs
  obtain ⟨t, ht, n, hn⟩ := command_reaches (e := e) (s := s) (timed_of_legal hlegal) hbounded (decodeCmd_isCommand w)
  exact ⟨n, hn ▸ execFor_seq_idle hbounded hs ht, hn ▸ ht⟩

end Sys2Proof.Machine

/-! Proofs for 20_memory.md, the framebuffer: only a pixel write, a clear and a reset change it, a pixel write stays inside
`FB_SIZE`, and all three keep the canonical form (R60, R62, R69). -/

namespace Sys2Proof.Machine

open Sys2Proof.Safety

theorem Sent.fb {s t : State} (h : Sent s t) : t.fb = s.fb := by
  obtain ⟨_, _, _, _, rfl, _⟩ := h; rfl

section

variable {p : Params} {e : Env} {s t : State}

theorem framebufferInv_of_fb_eq (hfb : t.fb = s.fb) (h : FramebufferInv p s) : FramebufferInv p t := by
  simpa only [FramebufferInv, hfb] using h

/-! ## Drawing -/

/-- A pixel write in bounds forms an index that exists, and one out of bounds writes nothing (R62, R194, R195). -/
theorem setPixel_framebufferInv (h8 : p.height % 8 = 0) {x y : Nat} {k : Bool} (h : FramebufferInv p s) :
    FramebufferInv p (setPixel p x y k s) := by
  obtain ⟨hwf, hwithin⟩ := h
  unfold setPixel
  split
  · exact ⟨hwf, hwithin⟩
  · next hin =>
    have hlt : pixelIndex p x y < fbSize p := pixelIndex_lt p x y (by omega) (by omega) h8
    exact ⟨Memory.wf_write _ _ _ hwf, Memory.within_write _ _ _ _ hlt hwithin⟩

theorem fbClear_framebufferInv (h : FramebufferInv p s) : FramebufferInv p (fbClear p s) :=
  ⟨Memory.wf_clear _ _ h.1, Memory.within_clear _ _ _ h.2⟩

theorem dspWriteChar_framebufferInv (h8 : p.height % 8 = 0) (h : FramebufferInv p s) :
    FramebufferInv p (dspWriteChar p e s) := by
  unfold dspWriteChar
  split
  · exact h
  · exact paintGlyph_keeps p (fun m => Memory.wf m = true ∧ Memory.within (fbSize p) m = true)
      (fun _ _ _ _ hs => setPixel_framebufferInv h8 hs) _ _ s h

theorem dspWriteString_framebufferInv (h8 : p.height % 8 = 0) {codes : List Byte} {font color : Word}
    (h : FramebufferInv p s) : FramebufferInv p (dspWriteString p e codes font color s) := by
  unfold dspWriteString
  induction codes generalizing s with
  | nil => exact h
  | cons c cs ih =>
    have line : FramebufferInv p (writeCharLine p e font color s c) := dspWriteChar_framebufferInv h8 h
    exact ih line

/-- The instructions that have the framebuffer in their frame draw in it or clear it (R93). -/
theorem execFor_framebufferInv (h8 : p.height % 8 = 0) {i : Instr} (hs : FramebufferInv p s)
    (h : execFor p e i s = .next t) : FramebufferInv p t := by
  have hfb := congrArg State.fb (execFor_frame h)
  cases i
  case dspClear => obtain rfl := Host.Outcome.next.inj h; exact fbClear_framebufferInv hs
  case dspSetPixel => obtain rfl := Host.Outcome.next.inj h; exact setPixel_framebufferInv h8 hs
  case dspWriteChar => obtain rfl := Host.Outcome.next.inj h; exact dspWriteChar_framebufferInv h8 hs
  case dspWriteString => obtain rfl := Host.Outcome.next.inj h; exact dspWriteString_framebufferInv h8 hs
  case dspInit =>
    obtain rfl := Host.Outcome.next.inj h
    rcases dspInit_cases p e s with ⟨_, h⟩ | ⟨_, ⟨u, a, hu, _, h⟩ | ⟨u, hu, h⟩⟩ <;> rw [h]
    · exact hs
    · exact fbClear_framebufferInv (framebufferInv_of_fb_eq hu.fb hs)
    · exact framebufferInv_of_fb_eq hu.fb hs
  all_goals exact framebufferInv_of_fb_eq hfb hs

/-! ## Rows and beginnings -/

theorem enterChunk_fb (n : Nat) : (enterChunk p e n s).fb = s.fb := by
  rcases enterChunk_cases p e n s with ⟨_, h⟩ | ⟨_, h⟩
  · rw [h]
  · rw [h, succeed_fb]

theorem enterWindow_fb (q : Nat) : (enterWindow p e q s).fb = s.fb := by
  rcases enterWindow_cases p e q s with ⟨_, h⟩ | ⟨_, h⟩ <;> rw [h]
  exact enterChunk_fb 0

theorem enterConfig_fb (q : Nat) : (enterConfig p q s).fb = s.fb := by
  rcases enterConfig_cases p q s with ⟨_, h⟩ | ⟨_, h⟩ <;> rw [h]

theorem enterGlyph_fb (r c : Nat) : (enterGlyph p e r c s).fb = s.fb := by
  rcases enterGlyph_cases p e r c s with ⟨_, _, _, _, h⟩ | h
  · rw [h]
  · rw [h, succeed_fb, advanceCursor_fb]

theorem byteEnds_fb (k : Nat) (b : Byte) : (byteEnds p k b s).fb = s.fb := by
  unfold byteEnds; split <;> rfl

theorem swsCheck_fb : (swsCheck e s).fb = s.fb := by
  rcases swsCheck_cases e s with h | ⟨_, h⟩ <;> rw [h] <;> rfl

theorem probeNext_fb (init second : Bool) (n : Nat) : (probeNext p e init second n s).fb = s.fb := by
  unfold probeNext
  split
  · rfl
  · split <;> rfl

theorem probeRow_fb (init second : Bool) (n : Nat) : (probeRow p e init second n s).fb = s.fb := by
  refine probeRow_of (P := fun t => t.fb = s.fb) (fun a u _ hu => ?_) (fun u hu => (probeNext_fb ..).trans hu.fb)
  split
  · exact (enterConfig_fb 0).trans hu.fb
  · exact hu.fb

/-- Of the rows of the sequencer only `DSP_CLEARING` and `DSP_GLYPH` write the framebuffer. -/
theorem seqStep_framebufferInv (h8 : p.height % 8 = 0) (h : FramebufferInv p s) : FramebufferInv p (seqStep p e s) := by
  unfold seqStep
  cases s.seq with dsimp only
  | idle | swBitSample | rngConvert => exact h
  | tmrWait | swStartLow | swStartHigh | swBitDelay | rngSettle | rngPulse => exact delayPhase_of h h
  | swRespLow1 | swRespHigh | swRespLow2 | rngWaitRise | rngWaitFall => exact waitPhase_of h h h
  | swBitWaitHigh k i b => exact waitPhase_of h h (framebufferInv_of_fb_eq (byteEnds_fb k b) h)
  | swBitWaitLow k i b =>
    refine waitPhase_of h ?_ (framebufferInv_of_fb_eq (byteEnds_fb k b) h)
    split
    · exact h
    · exact framebufferInv_of_fb_eq (byteEnds_fb k b) h
  | swCheck => exact framebufferInv_of_fb_eq swsCheck_fb h
  | dspProbe init second n => exact framebufferInv_of_fb_eq (probeRow_fb ..) h
  | dspConfig q => exact framebufferInv_of_fb_eq ((enterConfig_fb _).trans (sendCmds_sent ..).fb) h
  | dspClearing init =>
    have cleared := fbClear_framebufferInv h
    split
    · exact framebufferInv_of_fb_eq (enterWindow_fb 0) cleared
    · exact cleared
  | dspWindow q => exact framebufferInv_of_fb_eq ((enterWindow_fb _).trans (sendCmds_sent ..).fb) h
  | dspChunk n => exact framebufferInv_of_fb_eq (enterChunk_fb _) h
  | dspGlyph r c => exact framebufferInv_of_fb_eq (enterGlyph_fb ..) (setPixel_framebufferInv h8 h)

/-- Of the commands begun on the sequencer only `DSP_SET_PIXEL`, which completes at once, writes the framebuffer. -/
theorem seqBegin_framebufferInv (h8 : p.height % 8 = 0) (i : Instr) (h : FramebufferInv p s) :
    FramebufferInv p (seqBegin p e i s) := by
  cases i with
  | dspSetPixel => exact setPixel_framebufferInv h8 h
  | dspWriteChar =>
    unfold seqBegin; dsimp only; split
    · exact h
    · exact framebufferInv_of_fb_eq (enterGlyph_fb 0 0) h
  | dspFlush =>
    unfold seqBegin; dsimp only; split
    · exact framebufferInv_of_fb_eq (enterWindow_fb 0) h
    · exact h
  | rngMeasure | dspProbe | dspInit => unfold seqBegin; dsimp only; split <;> exact h
  | _ => exact h

end

/-- Settles O52: instructions, rows and beginnings draw inside the framebuffer or leave it alone, and a reset empties it. -/
theorem stepKeepsTheFramebuffer : Obligations.StepKeepsTheFramebuffer := by
  intro s t hs h
  have h8 : params.height % 8 = 0 := by decide
  rcases step_cases h with ⟨i, rest, _, _, h⟩ | ⟨index, v, rest, _, rfl⟩ | ⟨index, rest, _, rfl⟩ | ⟨v, rest, _, rfl⟩ |
    ⟨rest, _, rfl⟩ | ⟨rest, _, rfl⟩ | ⟨rest, _, rfl⟩
  · rw [exec_eq_execFor] at h
    exact execFor_framebufferInv (s := { s with inbox := rest }) h8 hs h
  · rw [regWrite_frame]; exact hs
  · exact hs
  · exact seqBegin_framebufferInv (s := { s with inbox := rest }) h8 _ hs
  · exact seqStep_framebufferInv (s := { s with inbox := rest }) h8 hs
  · exact hs
  · exact ⟨Memory.wf_reset, rfl⟩

end Sys2Proof.Machine

/-! Proofs for 20_memory.md: what a legal configuration says of the framebuffer, the pixel mapping and the font (R11, R61,
R67), and the commands that read or write them (R72, R74, R194, R206). -/

namespace Sys2Proof.Machine

/-- What the framebuffer and the font need of a configuration (R10, R11). -/
structure Drawable (p : Params) : Prop where
  width_pos : 0 < p.width
  height_mod : p.height % 8 = 0
  chunk_dvd : p.chunk ∣ fbSize p
  fontFirst_le_space : p.fontFirst ≤ Config.space
  space_le_fontLast : Config.space ≤ p.fontLast

theorem drawable_of_legal {p : Params} (h : configErrors p = []) : Drawable p := by
  simp only [configErrors, List.append_eq_nil_iff, errorUnless_eq_nil, Bool.and_eq_true, decide_eq_true_eq, beq_iff_eq] at h
  obtain ⟨⟨⟨⟨⟨⟨⟨⟨⟨⟨⟨⟨⟨hwidth, hheight⟩, hchunk⟩, _⟩, _⟩, _⟩, _⟩, _⟩, _⟩, hfont⟩, _⟩, _⟩, _⟩, _⟩ := h
  obtain ⟨⟨hfirst, hlast⟩, _⟩ := hfont
  exact ⟨hwidth.1, hheight.2, Nat.dvd_of_mod_eq_zero hchunk.2, hfirst, hlast⟩

/-! ## The pixel mapping -/

/-- The byte of a pixel gives back its column (R61). -/
theorem pixelIndex_mod {p : Params} {x : Nat} (hx : x < p.width) (y : Nat) : pixelIndex p x y % p.width = x := by
  rw [pixelIndex, Nat.add_mul_mod_self_right, Nat.mod_eq_of_lt hx]

/-- The byte of a pixel gives back its page of eight rows (R61). -/
theorem pixelIndex_div {p : Params} {x : Nat} (hx : x < p.width) (y : Nat) : pixelIndex p x y / p.width = y / 8 := by
  rw [pixelIndex, Nat.add_mul_div_right _ _ (by omega), Nat.div_eq_of_lt hx, Nat.zero_add]

/-- The pages of the framebuffer's bytes are those of the grid (R60, R61). -/
theorem div_width_lt {p : Params} {i : Nat} (hi : i < fbSize p) : i / p.width < p.height / 8 :=
  Nat.div_lt_of_lt_mul hi

/-- Bit `b` of byte `i` is the bit of the pixel in column `i mod WIDTH`, row `8 * (i div WIDTH) + b` (R61). -/
theorem pixelIndex_of_byte (p : Params) (i : Nat) {b : Nat} (hb : b < 8) :
    pixelIndex p (i % p.width) (8 * (i / p.width) + b) = i := by
  have hpage : (8 * (i / p.width) + b) / 8 = i / p.width := by omega
  rw [pixelIndex, hpage, Nat.mul_comm, Nat.mod_add_div]

/-- Settles O28: column, page and bit of a pixel are the remainder, the quotient and the rest. -/
theorem pixelMappingIsABijection : Obligations.PixelMappingIsABijection := by
  intro p hp
  have legal := drawable_of_legal hp
  refine ⟨fun x y hx hy => ?_, fun i b hi hb => ?_⟩
  · have hpage : 8 * (pixelIndex p x y / p.width) + pixelBit y = y := by
      rw [pixelIndex_div hx, pixelBit, Nat.div_add_mod]
    exact ⟨pixelIndex_lt p x y hx hy legal.height_mod, Nat.mod_lt _ (by decide), pixelIndex_mod hx y, hpage⟩
  · have hrow : 8 * (i / p.width) + b < p.height := by
      have hpage := div_width_lt hi
      omega
    have hbit : pixelBit (8 * (i / p.width) + b) = b := by rw [pixelBit]; omega
    exact ⟨Nat.mod_lt _ legal.width_pos, hrow, pixelIndex_of_byte p i hb, hbit⟩

/-- Settles O30: the command is one pixel write, which the laws of the framebuffer describe. -/
theorem setPixelWritesOneBit : Obligations.SetPixelWritesOneBit := by
  intro s hx hy
  refine ⟨dspSetPixel params env s, rfl, ?_, fun x y hx' hy' hne => ?_, fun i hi => ?_, ?_⟩
  · exact (pixelAt_setPixel params _ _ _ s _ _ hx hy).trans (if_pos ⟨rfl, rfl⟩)
  · exact (pixelAt_setPixel params _ _ _ s _ _ hx' hy').trans (if_neg fun ⟨h1, h2⟩ => hne.elim (· h1) (· h2))
  · exact (fbRead_setPixel params _ _ _ s i).trans (if_neg fun ⟨_, _, h⟩ => hi h)
  · rw [dspSetPixel, setPixel_frame]; rfl

/-! ## The font -/

theorem glyphCode_of_mem {p : Params} {ch : Byte} (h1 : p.fontFirst ≤ ch) (h2 : ch ≤ p.fontLast) : glyphCode p ch = ch :=
  if_pos ⟨h1, h2⟩

theorem glyphCode_of_not_mem {p : Params} {ch : Byte} (h : ch < p.fontFirst ∨ p.fontLast < ch) :
    glyphCode p ch = Config.space :=
  if_neg fun ⟨h1, h2⟩ => h.elim (BitVec.not_lt.mpr h1) (BitVec.not_lt.mpr h2)

/-- `s` with another value in `ARG0`, the operand a character code is read from. -/
def withArg0 (v : Word) (s : State) : State :=
  { s with arg0 := v }

theorem setPixel_withArg0 (p : Params) (x y : Nat) (k : Bool) (v : Word) (s : State) :
    setPixel p x y k (withArg0 v s) = withArg0 v (setPixel p x y k s) := by
  unfold setPixel; split <;> rfl

theorem paintRow_withArg0 (p : Params) (g : Byte) (k : Bool) (v : Word) (s : State) (r : Nat) :
    paintRow p g k (withArg0 v s) r = withArg0 v (paintRow p g k s r) :=
  List.foldl_hom (withArg0 v) fun s _ => setPixel_withArg0 p _ _ _ v s

/-- Painting does not look at the operands (R200). -/
theorem paintGlyph_withArg0 (p : Params) (g : Byte) (k : Bool) (v : Word) (s : State) :
    paintGlyph p g k (withArg0 v s) = withArg0 v (paintGlyph p g k s) :=
  List.foldl_hom (withArg0 v) fun s r => paintRow_withArg0 p g k v s r

/-- Of `ARG0` a character command uses nothing but the glyph code (R67, R200). -/
theorem dspWriteChar_withArg0 {p : Params} {v w : Word}
    (h : glyphCode p (v.setWidth 8) = glyphCode p (w.setWidth 8)) (e : Env) (s : State) :
    withArg0 w (dspWriteChar p e (withArg0 v s)) = dspWriteChar p e (withArg0 w s) := by
  have hglyph : glyphCode p (operandCh (withArg0 v s)) = glyphCode p (operandCh (withArg0 w s)) := h
  by_cases hfont : operandFont s ≠ 0
  · have refused (u : Word) : dspWriteChar p e (withArg0 u s) = refuse e (withArg0 u s) := if_pos hfont
    rw [refused, refused]; rfl
  · have painted (u : Word) : dspWriteChar p e (withArg0 u s) =
        succeed e (advanceCursor p (withArg0 u (paintGlyph p (glyphCode p (operandCh (withArg0 u s))) (operandColor s) s))) := by
      rw [← paintGlyph_withArg0]; exact if_neg hfont
    rw [painted, painted, hglyph]; rfl

/-- Settles O34: a code outside the font has the glyph code of the space, which the font holds. -/
theorem unknownCodesRenderAsSpace : Obligations.UnknownCodesRenderAsSpace := by
  intro p hp
  have legal := drawable_of_legal hp
  refine ⟨fun ch => glyphCode_of_mem, fun ch => glyphCode_of_not_mem, fun ch => ?_, fun e s v hv => ?_⟩
  · unfold glyphCode
    split
    · assumption
    · exact ⟨legal.fontFirst_le_space, legal.space_le_fontLast⟩
  · have hspace : glyphCode p Config.space = Config.space := glyphCode_of_mem legal.fontFirst_le_space legal.space_le_fontLast
    exact dspWriteChar_withArg0 (w := 0x20) ((glyphCode_of_not_mem hv).trans hspace.symm) e s

/-! ## Bus traffic -/

/-- Successive chunks of `c` items run through the first `n * c` in order. -/
theorem flatMap_chunks {α : Type} (f : Nat → α) (c n : Nat) :
    (List.range n).flatMap (fun i => (List.range c).map fun j => f (c * i + j)) = (List.range (c * n)).map f := by
  induction n with
  | zero => simp
  | succ n ih =>
    rw [List.range_succ, List.flatMap_append, ih, Nat.mul_succ, List.range_add, List.map_append, List.map_map]
    simp [Function.comp_def]

/-- The contents of all chunks are the bytes of the framebuffer in ascending order (R242). -/
theorem flatMap_chunkBytes {p : Params} (h : p.chunk ∣ fbSize p) (s : State) :
    (List.range (chunkCount p)).flatMap (chunkBytes p s) = (List.range (fbSize p)).map (fbRead s) := by
  have chunks := flatMap_chunks (fbRead s) p.chunk (chunkCount p)
  rwa [chunkCount, Nat.mul_div_cancel' h] at chunks

/-- Settles O42: after the window commands a flush sends exactly the chunks, from the state it began in. -/
theorem flushContentIsTheFramebuffer : Obligations.FlushContentIsTheFramebuffer := by
  intro p e s hp
  obtain ⟨now, n, b, hflush, _⟩ := flush_eq p e s
  refine ⟨_, by rw [hflush], by simp [chunkCount], ?_, ?_⟩
  · rw [List.flatMap_map]
    exact flatMap_chunkBytes (drawable_of_legal hp).chunk_dvd s
  · intro ev hev
    obtain ⟨i, _, rfl⟩ := List.mem_map.mp hev
    exact ⟨chunkBytes p s i, rfl, by simp [chunkBytes]⟩

/-- Settles O47: `TRACE` is in the frame of the rows that use the bus only. -/
theorem inMemoryCommandsAreSilent : Obligations.InMemoryCommandsAreSilent := by
  intro i s t h hne
  have frame := congrArg State.trace (exec_frame h)
  cases i
  case dspProbe | dspInit | dspFlush | busCmdTransfer | busDataTransfer | busReadyQuery => simp
  all_goals exact absurd frame hne

end Sys2Proof.Machine

/-! Proofs for 30_encoding.md, the encoder: what it encodes decodes back, format by format (R31, R91, R95 to R101). -/

namespace Sys2Proof

/-! ## Host commands -/

/-- An opcode that R91 does not list selects the refused command (R104). -/
theorem decodeOpcode_of_not_mem {op : Byte} (h : op ∉ definedOpcodes) : decodeOpcode op = .reserved op := by
  unfold decodeOpcode
  split
  case h_13 => rfl
  all_goals
    next hop =>
    have hval : op = BitVec.ofNat 8 op.toNat := by simp
    rw [hop] at hval
    exact absurd (by rw [hval]; decide) h

/-- A `CMD` value with zeros above its opcode selects that opcode's command (R31). -/
theorem decodeCmd_setWidth (op : Byte) : decodeCmd (op.setWidth 16) = decodeOpcode op := by
  rw [decodeCmd, BitVec.setWidth_setWidth_of_le _ (by decide), BitVec.setWidth_eq]

/-! ## Bus accesses -/

/-- An address byte carries its address (R95). -/
@[simp] theorem addressOf_addressByte (a : Addr7) : addressOf (addressByte a) = a := by
  have ha := a.isLt
  apply BitVec.eq_of_toNat_eq
  simp [addressByte, addressOf, Nat.shiftLeft_eq, Nat.shiftRight_eq_div_pow]
  omega

/-- An address byte has the write direction (R95), in the form `simp` gives a bit. -/
@[simp] theorem addressByte_getElem_zero (a : Addr7) : (addressByte a)[0] = false :=
  Laws.Encoded.addressByte_bit0 a

/-! ## Frames -/

/-- The bits of a byte assemble to it (R68, R101). -/
theorem byteOfBits_bitsOfByte (b : Byte) : byteOfBits (bitsOfByte b) = b := by
  have hbits : bitsOfByte (byteOfBits (bitsOfByte b)) = bitsOfByte b := bitsOfByte_byteOfBits (by simp [bitsOfByte])
  apply BitVec.eq_of_getLsbD_eq
  intro i hi
  have hbit := List.map_inj_left.mp hbits (7 - i) (List.mem_range.mpr (by omega))
  rwa [Nat.sub_sub_self (by omega)] at hbit

theorem decodeLine_flatMap (h f t g k : Byte) :
    decodeLine ([h, f, t, g, k].flatMap bitsOfByte) = .ok (.swFrame h f t g k) := by
  have groups : decodeLine ([h, f, t, g, k].flatMap bitsOfByte) = .ok (.swFrame (byteOfBits (bitsOfByte h))
      (byteOfBits (bitsOfByte f)) (byteOfBits (bitsOfByte t)) (byteOfBits (bitsOfByte g)) (byteOfBits (bitsOfByte k))) := rfl
  simpa only [byteOfBits_bitsOfByte] using groups

/-- Settles O1, format by format: opcodes, the three bus accesses, the frame, the text line. -/
theorem encodedInstructionsDecodeBack : Obligations.EncodedInstructionsDecodeBack := by
  intro i hwf
  cases i
  case reserved op =>
    have hop : op ∉ definedOpcodes := by simpa [Instr.wf] using hwf
    exact congrArg Except.ok ((decodeCmd_setWidth op).trans (decodeOpcode_of_not_mem hop))
  case busDataTransfer a d =>
    have hd : d.length = Config.chunk := by simpa [Instr.wf] using hwf
    have hctrl : Config.ctrlData ≠ Config.ctrlCmd := by decide
    simp [encode, decode, decodeWith, decodeBus, hd, hctrl]
  case busCmdTransfer | busReadyQuery => simp [encode, decode, decodeWith, decodeBus]
  case swFrame h f t g k => exact decodeLine_flatMap h f t g k
  all_goals rfl

end Sys2Proof

/-! Proofs for 30_encoding.md: refused commands (R104, R106), a frame given as five bytes (R149 to R151), the bus formats run
as single accesses (R97 to R100). -/

namespace Sys2Proof.Machine

open Sys2Proof.Safety

/-! ## Refusals -/

/-- Between commands a refusal sets the flags, takes its draw and changes nothing else (R104). -/
theorem refuse_of_idle (e : Env) {s : State} (hs : s.seq = .idle) :
    refuse e s = { s with stOk := false, stIll := true, time := s.time + e.duration s.draws, draws := s.draws + 1 } := by
  rw [hs]; rfl

/-- A command that R104 refuses ends in `refuse`. -/
theorem execFor_of_refused {p : Params} {e : Env} {i : Instr} {s : State} (h : refused p i s = true) :
    execFor p e i s = .next (refuse e s) := by
  cases i
  case rngMeasure =>
    have hrng : p.hasRng = false := by simpa [refused] using h
    simp [execFor, rngMeasure, hrng]
  case dspProbe => exact congrArg _ (if_pos h)
  case dspInit => exact congrArg _ (if_pos h)
  case dspWriteChar => exact congrArg _ (if_pos (bne_iff_ne.mp h))
  case dspFlush =>
    have hbound : s.boundValid = false := by simpa [refused] using h
    simp [execFor, dspFlush, hbound]
  case reserved => rfl
  all_goals cases h

/-- Settles O11: each ground is one on which `refused` answers. -/
theorem refusedCommandsChangeNothingElse : Obligations.RefusedCommandsChangeNothingElse := by
  intro p e w s hs hground
  have hrefused : refused p (decodeCmd w) s = true := by
    unfold decodeCmd
    rcases hground with h | ⟨h, hrng⟩ | ⟨h, hfont⟩ | ⟨h, hbound⟩ | ⟨h | h, hbound⟩
    · rw [decodeOpcode_of_not_mem h]; rfl
    · rw [h]; exact congrArg not hrng
    · rw [h]; exact bne_iff_ne.mpr hfont
    · rw [h]; exact congrArg not hbound
    · rw [h]; exact hbound
    · rw [h]; exact hbound
  rw [execFor_of_refused hrefused, refuse_of_idle e hs]

/-- The ranges of R106 hold no opcode of R91. -/
theorem not_mem_definedOpcodes {op : Byte}
    (h : op = 0x00 ∨ (0x04 ≤ op ∧ op ≤ 0x0F) ∨ (0x11 ≤ op ∧ op ≤ 0x1F) ∨ (0x21 ≤ op ∧ op ≤ 0x2F) ∨ 0x37 ≤ op) :
    op ∉ definedOpcodes := by
  have outside : ∀ x ∈ definedOpcodes,
      ¬(x = 0x00 ∨ (0x04 ≤ x ∧ x ≤ 0x0F) ∨ (0x11 ≤ x ∧ x ≤ 0x1F) ∨ (0x21 ≤ x ∧ x ≤ 0x2F) ∨ 0x37 ≤ x) := by decide
  exact fun hmem => outside op hmem h

/-- Settles O12: no reserved opcode is one of R91's, and its meaning is the refusal. -/
theorem reservedOpcodesAreRefused : Obligations.ReservedOpcodesAreRefused := by
  intro op s hs hop
  refine ⟨(decodeCmd_setWidth op).trans (decodeOpcode_of_not_mem (not_mem_definedOpcodes hop)), ?_⟩
  rw [← refuse_of_idle env hs]
  rfl

/-! ## A frame given as five bytes -/

theorem checksumHolds_iff (h f t g k : Byte) :
    checksumHolds ⟨h, f, t, g, k⟩ = true ↔ k.toNat = (h.toNat + f.toNat + t.toNat + g.toNat) % 256 :=
  beq_iff_eq

/-- The checksum step commits `RAW` and succeeds if its checksum holds (R150). -/
theorem swsCheck_of_checksum (e : Env) {s : State} (h : checksumHolds s.raw = true) :
    swsCheck e s = succeed e (commitReading s) :=
  if_pos h

/-- The checksum step fails, with nothing committed, if it does not (R151). -/
theorem swsCheck_of_not_checksum (e : Env) {s : State} (h : ¬checksumHolds s.raw = true) : swsCheck e s = fail e s :=
  if_neg h

/-- Settles O24: the frame is in `RAW`, and the checksum step decides on it. -/
theorem frameIsAcceptedByItsChecksum : Obligations.FrameIsAcceptedByItsChecksum := by
  intro h f t g k s
  refine ⟨swFrame env ⟨h, f, t, g, k⟩ s, rfl, ?_⟩
  rw [← checksumHolds_iff h f t g k, ne_eq, ← checksumHolds_iff h f t g k]
  unfold swFrame
  by_cases hsum : checksumHolds ⟨h, f, t, g, k⟩ = true
  · rw [swsCheck_of_checksum env hsum]
    exact ⟨rfl, rfl, rfl, fun _ => ⟨rfl, rfl, rfl⟩, fun hn => absurd hsum hn, rfl⟩
  · rw [swsCheck_of_not_checksum env hsum]
    exact ⟨rfl, rfl, rfl, fun hs => absurd hs hsum, fun _ => ⟨rfl, rfl, rfl⟩, rfl⟩

/-! ## Bus accesses -/

/-- Settles O43: the access is one event and one draw; the length of a data transfer is checked first. -/
theorem busAccessesRecordTheirEvent : Obligations.BusAccessesRecordTheirEvent :=
  ⟨fun _ _ _ => rfl, fun _ _ _ hd => if_pos hd, fun _ _ _ hd => if_neg hd, fun _ _ => rfl⟩

end Sys2Proof.Machine

/-! Proofs for 30_encoding.md, the shapes of the bus: whatever is sent in the reference configuration has one of the three
shapes, and `TBUF` keeps its 17 bytes (R94, R96, R100). -/

namespace Sys2Proof.Machine

open Sys2Proof.Safety

section

variable {e : Env} {s t : State}

theorem busInv_of_eq (htbuf : t.tbuf = s.tbuf) (htrace : t.trace = s.trace) (h : BusInv s) : BusInv t := by
  simpa only [BusInv, htbuf, htrace] using h

/-- An event of one of the shapes may be recorded, with 17 bytes in `TBUF`. -/
theorem busInv_append {ev : BusEvent} (h : BusInv s) (hev : eventShape ev = true) (hlen : t.tbuf.length = 17)
    (htrace : t.trace = s.trace ++ [ev]) : BusInv t := by
  obtain ⟨_, htr⟩ := h
  exact ⟨hlen, by rw [htrace, List.all_append, htr]; simpa using hev⟩

/-! ## Accesses -/

theorem busReady_busInv {a : Addr7} (h : BusInv s) : BusInv (busReady e a s).2 :=
  busInv_append h (ev := .ready a (e.ack s.draws a)) rfl h.1 rfl

/-- A command transfer carries the control byte 0x00 and one byte (R97). -/
theorem cmdTransfer_busInv {a : Addr7} {c : Byte} (h : BusInv s) : BusInv (busWrite e a [params.ctrlCmd, c] s) :=
  busInv_append h (ev := .write a [params.ctrlCmd, c]) rfl h.1 rfl

/-- A data transfer carries the control byte 0x40 and sixteen bytes (R98). -/
theorem sendData_busInv {a : Addr7} {d : List Byte} (hd : d.length = 16) (h : BusInv s) :
    BusInv (sendData params e a d s) := by
  have shape : eventShape (.write a (params.ctrlData :: d)) = true := by
    simp [eventShape, params, hd, Config.chunk]
  exact busInv_append h shape (by simp [hd]) rfl

theorem sendCmds_busInv (cs : List Byte) (h : BusInv s) : BusInv (sendCmds params e cs s) :=
  List.foldlRecOn cs _ h fun _ hs _ _ => cmdTransfer_busInv hs

theorem sendChunk_busInv (n : Nat) (h : BusInv s) : BusInv (sendChunk params e s n) :=
  sendData_busInv (by simp [chunkBytes, params, Config.chunk]) h

theorem flush_busInv (h : BusInv s) : BusInv (flush params e s) :=
  List.foldlRecOn _ _ (sendCmds_busInv _ h) fun _ hs n _ => sendChunk_busInv n hs

theorem queryTrials_busInv {a : Addr7} {n : Nat} (h : BusInv s) : BusInv (queryTrials e a n s).2 := by
  induction n generalizing s with
  | zero => exact h
  | succ n ih =>
    have query := busReady_busInv (e := e) (a := a) h
    unfold queryTrials
    generalize busReady e a s = r at query ⊢
    rcases r with ⟨_ | _, s1⟩
    · exact ih query
    · exact query

theorem probe_busInv {p : Params} (h : BusInv s) : BusInv (probe p e s).2 := by
  have primary := queryTrials_busInv (e := e) (a := p.addrPrimary) (n := p.probeTrials) h
  unfold probe
  generalize queryTrials e p.addrPrimary p.probeTrials s = r at primary ⊢
  rcases r with ⟨_ | _, s1⟩
  · exact queryTrials_busInv primary
  · exact primary

/-! ## Instructions -/

theorem succeed_busInv (h : BusInv s) : BusInv (succeed e s) := h

theorem dspProbe_busInv (h : BusInv s) : BusInv (dspProbe params e s) := by
  have queried := probe_busInv (p := params) (e := e) h
  unfold dspProbe
  split
  · exact h
  · generalize probe params e s = r at queried ⊢
    rcases r with ⟨_ | _, s1⟩ <;> exact queried

theorem dspInit_busInv (h : BusInv s) : BusInv (dspInit params e s) := by
  have queried := probe_busInv (p := params) (e := e) h
  unfold dspInit
  split
  · exact h
  · generalize probe params e s = r at queried ⊢
    rcases r with ⟨_ | _, s1⟩
    · exact queried
    · have configured : BusInv (fbClear params (sendCmds params e params.initSeq s1)) := sendCmds_busInv _ queried
      exact succeed_busInv (flush_busInv configured)

theorem dspFlush_busInv (h : BusInv s) : BusInv (dspFlush params e s) := by
  unfold dspFlush
  split
  · exact succeed_busInv (flush_busInv h)
  · exact h

/-- The instructions that have the trace in their frame send only what has a shape (R93, R100). -/
theorem execFor_busInv {i : Instr} (hs : BusInv s) (h : execFor params e i s = .next t) : BusInv t := by
  have htbuf := congrArg State.tbuf (execFor_frame h)
  have htrace := congrArg State.trace (execFor_frame h)
  cases i
  case dspProbe => obtain rfl := Host.Outcome.next.inj h; exact dspProbe_busInv hs
  case dspInit => obtain rfl := Host.Outcome.next.inj h; exact dspInit_busInv hs
  case dspFlush => obtain rfl := Host.Outcome.next.inj h; exact dspFlush_busInv hs
  case busCmdTransfer => obtain rfl := Host.Outcome.next.inj h; exact cmdTransfer_busInv hs
  case busReadyQuery => obtain rfl := Host.Outcome.next.inj h; exact busReady_busInv hs
  case busDataTransfer a d =>
    by_cases hd : d.length = 16
    · rw [busDataTransfer_next h]; exact sendData_busInv hd hs
    · exact absurd ((if_neg hd).symm.trans h) nofun
  all_goals exact busInv_of_eq htbuf htrace hs

/-! ## Rows and beginnings -/

theorem enterChunk_busInv (n : Nat) (h : BusInv s) : BusInv (enterChunk params e n s) := by
  rcases enterChunk_cases params e n s with ⟨_, heq⟩ | ⟨_, heq⟩ <;> rw [heq] <;> exact h

theorem enterWindow_busInv (q : Nat) (h : BusInv s) : BusInv (enterWindow params e q s) := by
  rcases enterWindow_cases params e q s with ⟨_, heq⟩ | ⟨_, heq⟩ <;> rw [heq]
  · exact h
  · exact enterChunk_busInv 0 h

theorem enterConfig_busInv (q : Nat) (h : BusInv s) : BusInv (enterConfig params q s) := by
  rcases enterConfig_cases params q s with ⟨_, heq⟩ | ⟨_, heq⟩ <;> rw [heq] <;> exact h

theorem enterGlyph_busInv (r c : Nat) (h : BusInv s) : BusInv (enterGlyph params e r c s) := by
  rcases enterGlyph_cases params e r c s with ⟨_, _, _, _, heq⟩ | heq <;> rw [heq] <;> exact h

theorem byteEnds_busInv (k : Nat) (b : Byte) (h : BusInv s) : BusInv (byteEnds params k b s) := by
  unfold byteEnds; split <;> exact h

theorem swsCheck_busInv (h : BusInv s) : BusInv (swsCheck e s) := by
  rcases swsCheck_cases e s with heq | ⟨_, heq⟩ <;> rw [heq] <;> exact h

theorem setPixel_busInv {p : Params} {x y : Nat} {k : Bool} (h : BusInv s) : BusInv (setPixel p x y k s) := by
  rw [setPixel_frame]; exact h

theorem probeNext_busInv (init second : Bool) (n : Nat) (h : BusInv s) : BusInv (probeNext params e init second n s) := by
  unfold probeNext
  split
  · exact h
  · split <;> exact h

theorem probeRow_busInv (init second : Bool) (n : Nat) (h : BusInv s) : BusInv (probeRow params e init second n s) := by
  unfold probeRow
  dsimp only
  generalize (if second then params.addrSecondary else params.addrPrimary) = a
  have query := busReady_busInv (e := e) (a := a) h
  generalize busReady e a s = r at query ⊢
  rcases r with ⟨_ | _, s1⟩
  · exact probeNext_busInv _ _ _ query
  · cases init with
    | true => exact enterConfig_busInv (s := { s1 with boundValid := true, boundAddr := a }) 0 query
    | false => exact query

/-- Of the rows of the sequencer only those of the display send, and each sends one access of a shape. -/
theorem seqStep_busInv (h : BusInv s) : BusInv (seqStep params e s) := by
  unfold seqStep
  cases s.seq with dsimp only
  | idle | swBitSample | rngConvert => exact h
  | tmrWait | swStartLow | swStartHigh | swBitDelay | rngSettle | rngPulse => exact delayPhase_of h h
  | swRespLow1 | swRespHigh | swRespLow2 | rngWaitRise | rngWaitFall => exact waitPhase_of h h h
  | swBitWaitHigh k i b => exact waitPhase_of h h (byteEnds_busInv k b h)
  | swBitWaitLow k i b =>
    refine waitPhase_of h ?_ (byteEnds_busInv k b h)
    split
    · exact h
    · exact byteEnds_busInv (s := latency params e s) k b h
  | swCheck => exact swsCheck_busInv h
  | dspProbe init second n => exact probeRow_busInv init second n h
  | dspConfig q => exact enterConfig_busInv _ (sendCmds_busInv _ h)
  | dspClearing init =>
    cases init with
    | true => exact enterWindow_busInv (s := fbClear params s) 0 h
    | false => exact h
  | dspWindow q => exact enterWindow_busInv _ (sendCmds_busInv _ h)
  | dspChunk n => exact enterChunk_busInv _ (sendChunk_busInv n h)
  | dspGlyph r c => exact enterGlyph_busInv _ _ (setPixel_busInv h)

/-- No command sends anything in its first row. -/
theorem seqBegin_busInv (i : Instr) (h : BusInv s) : BusInv (seqBegin params e i s) := by
  cases i with
  | dspSetPixel => exact setPixel_busInv h
  | dspWriteChar =>
    unfold seqBegin; dsimp only; split
    · exact h
    · exact enterGlyph_busInv 0 0 h
  | dspFlush =>
    unfold seqBegin; dsimp only; split
    · exact enterWindow_busInv 0 h
    · exact h
  | rngMeasure | dspProbe | dspInit => unfold seqBegin; dsimp only; split <;> exact h
  | _ => exact h

end

/-- Settles O56: instructions, rows and beginnings send only what has a shape; a reset keeps the trace and leaves `TBUF` its
width. -/
theorem stepKeepsTheBusShapes : Obligations.StepKeepsTheBusShapes := by
  intro s t hs h
  rcases step_cases h with ⟨i, rest, _, _, h⟩ | ⟨index, v, rest, _, rfl⟩ | ⟨index, rest, _, rfl⟩ | ⟨v, rest, _, rfl⟩ |
    ⟨rest, _, rfl⟩ | ⟨rest, _, rfl⟩ | ⟨rest, _, rfl⟩
  · rw [exec_eq_execFor] at h
    exact execFor_busInv (s := { s with inbox := rest }) hs h
  · rw [regWrite_frame]; exact hs
  · exact hs
  · exact seqBegin_busInv (s := { s with inbox := rest }) _ hs
  · exact seqStep_busInv (s := { s with inbox := rest }) hs
  · exact hs
  · exact ⟨by simp [hardReset, params, Config.chunk], hs.2⟩

end Sys2Proof.Machine

/-! Proofs for 30_encoding.md, the string line: its accesses, one step each, leave what the pseudo-command leaves (R107, R108,
R204). -/

namespace Sys2Proof.Machine

/-! ## The accesses still to come reach no character command -/

/-- `s` with other accesses to come. -/
def withInbox (inbox : List HostInput) (s : State) : State :=
  { s with inbox := inbox }

theorem setPixel_withInbox (p : Params) (x y : Nat) (k : Bool) (inbox : List HostInput) (s : State) :
    setPixel p x y k (withInbox inbox s) = withInbox inbox (setPixel p x y k s) := by
  unfold setPixel; split <;> rfl

theorem paintGlyph_withInbox (p : Params) (g : Byte) (k : Bool) (inbox : List HostInput) (s : State) :
    paintGlyph p g k (withInbox inbox s) = withInbox inbox (paintGlyph p g k s) :=
  List.foldl_hom (withInbox inbox) fun _ _ => List.foldl_hom (withInbox inbox) fun s _ => setPixel_withInbox p _ _ _ inbox s

theorem dspWriteChar_withInbox (p : Params) (e : Env) (inbox : List HostInput) (s : State) :
    dspWriteChar p e (withInbox inbox s) = withInbox inbox (dspWriteChar p e s) := by
  unfold dspWriteChar
  rw [paintGlyph_withInbox]
  change (if s.arg1 ≠ 0 then _ else _) = withInbox inbox (if s.arg1 ≠ 0 then _ else _)
  split <;> rfl

theorem writeCharLine_withInbox (p : Params) (e : Env) (font color : Word) (inbox : List HostInput) (s : State) (ch : Byte) :
    writeCharLine p e font color (withInbox inbox s) ch = withInbox inbox (writeCharLine p e font color s ch) :=
  dspWriteChar_withInbox p e inbox { s with arg0 := ch.setWidth 16, arg1 := font, arg2 := color }

/-! ## Runs -/

theorem run_succ_of_next {M : Host.Core} {s t : M.State} (h : M.step s = .next t) (n : Nat) : M.run (n + 1) s = M.run n t := by
  simp [Host.Core.run, h]

/-- A step to a next state, then the others. -/
theorem run_succ_of_step {s t : State} (h : step s = .next t) (n : Nat) : core.run (n + 1) s = core.run n t :=
  run_succ_of_next (M := core) (s := s) (t := t) h n

/-- A write outside `CMD`, then the other accesses. -/
theorem run_write {s : State} (hs : s.seq = .idle) {index : BitVec 4} (h0 : index ≠ 0#4) (v : Word) (rest : List HostInput)
    (n : Nat) : core.run (n + 1) (withInbox (.write index v :: rest) s) = core.run n (regWrite index v (withInbox rest s)) :=
  run_succ_of_step (step_of_write (s := withInbox (.write index v :: rest) s) hs rfl h0) n

/-- A write of 0x35 to `CMD` runs the character command (R91). -/
theorem step_writeChar {s : State} (hs : s.seq = .idle) (rest : List HostInput) :
    step (withInbox (.write 0#4 0x0035 :: rest) s) = .next (withInbox rest (dspWriteChar params env s)) := by
  rw [← dspWriteChar_withInbox]
  exact step_of_inputOf (s := withInbox (.write 0#4 0x0035 :: rest) s) (pk := .cmd 0x0035) hs rfl rfl

/-- The four accesses of a character's line, one step each, leave what the line leaves (R108). -/
theorem run_commandLine {s : State} (hs : s.seq = .idle) (ch : Byte) (font color : Word) (rest : List HostInput) (n : Nat) :
    core.run (n + 4) (withInbox (commandLine 0x35 [ch.setWidth 16, font, color] ++ rest) s) =
      core.run n (withInbox rest (writeCharLine params env font color s ch)) := by
  calc core.run (n + 4) (withInbox (commandLine 0x35 [ch.setWidth 16, font, color] ++ rest) s)
    _ = core.run (n + 3) (withInbox ([.write 3#4 font, .write 4#4 color, .write 0#4 0x0035] ++ rest)
          { s with arg0 := ch.setWidth 16 }) := run_write (index := 2#4) hs (by decide) ..
    _ = core.run (n + 2) (withInbox ([.write 4#4 color, .write 0#4 0x0035] ++ rest)
          { s with arg0 := ch.setWidth 16, arg1 := font }) :=
      run_write (index := 3#4) (s := { s with arg0 := ch.setWidth 16 }) hs (by decide) ..
    _ = core.run (n + 1) (withInbox (.write 0#4 0x0035 :: rest)
          { s with arg0 := ch.setWidth 16, arg1 := font, arg2 := color }) :=
      run_write (index := 4#4) (s := { s with arg0 := ch.setWidth 16, arg1 := font }) hs (by decide) ..
    _ = core.run n (withInbox rest (writeCharLine params env font color s ch)) :=
      run_succ_of_step (step_writeChar (s := { s with arg0 := ch.setWidth 16, arg1 := font, arg2 := color }) hs rest) n

/-- The lines of a string, in order, leave what its characters' lines leave (R107, R204). -/
theorem run_stringLines {s : State} (hs : s.seq = .idle) (codes : List Byte) (font color : Word) (rest : List HostInput) :
    core.run (4 * codes.length) (withInbox (stringLines codes font color ++ rest) s) =
      .next (withInbox rest (dspWriteString params env codes font color s)) := by
  induction codes generalizing s with
  | nil => rfl
  | cons ch codes ih =>
    have line := run_commandLine hs ch font color (stringLines codes font color ++ rest) (4 * codes.length)
    rw [← List.append_assoc] at line
    exact line.trans (ih (dspWriteChar_seq ..))

/-- Settles O35: line by line, each of four accesses. -/
theorem writeStringIsItsExpansion : Obligations.WriteStringIsItsExpansion := by
  intro s codes font color rest hs
  have expansion := run_stringLines (s := withInbox rest s) hs codes font color rest
  have keeps : withInbox rest (dspWriteString params env codes font color (withInbox rest s)) =
      dspWriteString params env codes font color (withInbox rest s) :=
    (List.foldl_hom (withInbox rest) fun s ch => writeCharLine_withInbox params env font color rest s ch).symm
  rw [keeps] at expansion
  exact expansion

end Sys2Proof.Machine

/-! Proofs for 30_encoding.md, the frame on the line: a wait and a delay take exactly their ticks in the reference
configuration, a bit cell is read by the length of its high phase, and 40 cells are the bytes they spell (R101, R102, R144 to
R146, R149 to R151). -/

namespace Sys2Proof.Machine

open Sys2Proof.Safety

section

variable {e : Env} {s : State}

/-! ## Delays and waits of the reference configuration -/

theorem delay_params_time (n : Nat) : (delay params e n s).time = s.time + n := by
  rw [delay_time, show params.delaySlack + 1 = 1 from rfl, Nat.mod_one, Nat.add_zero]

/-- A level first seen after `j` ticks, within the budget, ends the wait there (R127). -/
theorem waitLevel_after {src : Nat → Bool} {v : Bool} {budget j : Nat} (hb : budget < 65536) (hj : j ≤ budget)
    (hno : ∀ u, u < j → src (s.time + u) = !v) (hd : src (s.time + j) = v) :
    ∃ t, waitLevel params e src v budget s = (true, t) ∧ Later s t ∧ t.time = s.time + j := by
  have hne : ∀ u, s.time ≤ u → u < s.time + j → src u ≠ v := by
    intro u h1 h2
    have h := hno (u - s.time) (by omega)
    rw [Nat.add_sub_cancel' h1] at h
    rw [h]; exact Bool.not_ne_self v
  have met := waitLevel_met params e s hb (Nat.le_add_right ..) (Nat.add_le_add_left hj _) hd hne
  refine ⟨_, met, (Later.waitLevel ..).pair met, ?_⟩
  rw [latency_time, show params.pollSlack + 1 = 1 from rfl, Nat.mod_one, Nat.add_zero]

/-- A released line is at the environment's level (R141). -/
theorem swLine_of_released (h : s.swOe = false) : swLine e s = e.line := by
  funext t; simp [swLine, h]

theorem Later.swOe {s t : State} (h : Later s t) : t.swOe = s.swOe := by
  obtain ⟨_, _, _, rfl, _⟩ := h; rfl

/-! ## Bit cells -/

/-- A bit cell from tick `t`: low for `j` ticks, high for `L`, then low until it has been sampled and the block looks for the
fall (R102, R146). -/
structure Pulse (line : Nat → Bool) (t j L : Nat) : Prop where
  low : ∀ u, u < j → line (t + u) = false
  high : ∀ u, u < L → line (t + j + u) = true
  fall : ∀ u, L ≤ u → u ≤ max L 40 → line (t + j + u) = false

/-- The sample, 40 ticks after the rise, is 1 exactly if the high phase is longer than that (R102). -/
theorem Pulse.sample {line : Nat → Bool} {t j L : Nat} (h : Pulse line t j L) : line (t + j + 40) = decide (41 ≤ L) := by
  by_cases hL : 41 ≤ L
  · rw [h.high 40 hL, decide_eq_true hL]
  · rw [h.fall 40 (by omega) (by omega), decide_eq_false hL]

/-- One bit whose rise comes within the budget: it is sampled 40 ticks after the rise, and the wait for low that follows decides
whether the byte goes on (R146, R148). -/
theorem readBits_of_rise {j : Nat} (hs : s.swOe = false) (hj : j ≤ 100) (hlow : ∀ u, u < j → e.line (s.time + u) = false)
    (hrise : e.line (s.time + j) = true) (n : Nat) (b : Byte) :
    ∃ u, Later s u ∧ u.time = s.time + j + 40 ∧ readBits params e (n + 1) b s =
      if (waitLevel params e e.line false 100 u).1 then
        readBits params e n (withBit b n (e.line (s.time + j + 40))) (waitLevel params e e.line false 100 u).2
      else (withBit b n (e.line (s.time + j + 40)), (waitLevel params e e.line false 100 u).2) := by
  obtain ⟨s1, rise, later1, time1⟩ := waitLevel_after (e := e) (src := e.line) (v := true) (by decide) hj hlow hrise
  have later2 : Later s (delay params e params.swSampleDelay s1) := later1.trans (.delay ..)
  have time2 : (delay params e params.swSampleDelay s1).time = s.time + j + 40 := by
    rw [delay_params_time, time1]; rfl
  refine ⟨delay params e params.swSampleDelay s1, later2, time2, ?_⟩
  rw [readBits, swLine_of_released hs, show params.swTimeout = 100 from rfl, rise]
  dsimp only
  rw [swLine_of_released (later2.swOe.trans hs), time2]
  generalize waitLevel params e e.line false 100 (delay params e params.swSampleDelay s1) = r
  rcases r with ⟨_ | _, s3⟩ <;> rfl

/-- A cell whose fall comes within the wait for low: its bit is read, and the next one is looked for from the fall, or 40 ticks
after the rise if that is later (R102, R146). -/
theorem readBits_of_pulse {j L : Nat} (hs : s.swOe = false) (hj : j ≤ 100) (h1 : 1 ≤ L) (hL : L ≤ 140)
    (pulse : Pulse e.line s.time j L) (n : Nat) (b : Byte) :
    ∃ t, Later s t ∧ t.time = s.time + j + max L 40 ∧
      readBits params e (n + 1) b s = readBits params e n (withBit b n (decide (41 ≤ L))) t := by
  obtain ⟨u, later, time, hread⟩ := readBits_of_rise hs hj pulse.low (pulse.high 0 h1) n b
  have still : ∀ v, v < max L 40 - 40 → e.line (u.time + v) = !false := by
    intro v hv
    have h := pulse.high (40 + v) (by omega)
    rwa [← Nat.add_assoc, ← time] at h
  have hend : u.time + (max L 40 - 40) = s.time + j + max L 40 := by omega
  obtain ⟨t, fall, later', time'⟩ := waitLevel_after (e := e) (src := e.line) (v := false) (budget := 100) (by decide)
    (by omega) still (by rw [hend]; exact pulse.fall _ (by omega) (le_refl _))
  refine ⟨t, later.trans later', time'.trans hend, ?_⟩
  rw [hread, fall, pulse.sample]
  rfl

/-! ## Bytes -/

theorem levelFor_iff {line : Nat → Bool} {v : Bool} {t n : Nat} :
    levelFor line v t n = true ↔ ∀ u, u < n → line (t + u) = v := by
  simp [levelFor]

/-- A cell on the line is a pulse whose length spells its bit. -/
theorem pulse_of_cellOn {line : Nat → Bool} {c : Cell} {t : Nat} (h : cellOn line c t = true) :
    c.low ≤ 100 ∧ 1 ≤ c.high ∧ c.high ≤ 140 ∧ c.bit = decide (41 ≤ c.high) ∧ Pulse line t c.low c.high := by
  simp only [cellOn, cellEnd, Bool.and_eq_true, decide_eq_true_eq, beq_iff_eq, Bool.not_eq_true', levelFor_iff] at h
  obtain ⟨⟨⟨⟨⟨⟨⟨hlow, h1⟩, h140⟩, hbit⟩, low⟩, high⟩, fall⟩, hend⟩ := h
  refine ⟨hlow, h1, h140, hbit, low, high, fun u hu hmax => ?_⟩
  by_cases hlast : u = max c.high 40
  · rw [hlast]; exact hend
  · have h := fall (u - c.high) (by omega)
    rwa [Nat.add_assoc (t + c.low), Nat.add_sub_cancel' hu] at h

/-- A byte with the bits from `m` up given these values, the highest first. -/
def withBits (m : Nat) : List Bool → Byte → Byte
  | [], b => b
  | v :: vs, b => withBits m vs (withBit b (m + vs.length) v)

/-- Eight bits put into an empty byte are the byte they spell (R68). -/
theorem withBits_eq_byteOfBits {bits : List Bool} (h : bits.length = 8) : withBits 0 bits 0 = byteOfBits bits := by
  match bits, h with
  | [b7, b6, b5, b4, b3, b2, b1, b0], _ => rfl

/-- Cells on the line are read bit for bit, and the block looks for the next one where the last is done (R146). -/
theorem readBits_of_cells {cells : List Cell} (hs : s.swOe = false) (h : cellsOn e.line cells s.time = true)
    (m : Nat) (b : Byte) :
    ∃ t, Later s t ∧ t.time = cellsEnd cells s.time ∧
      readBits params e (m + cells.length) b s = readBits params e m (withBits m (cells.map Cell.bit) b) t := by
  induction cells generalizing s b with
  | nil => exact ⟨s, .refl s, rfl, rfl⟩
  | cons c cells ih =>
    obtain ⟨hcell, hcells⟩ := Bool.and_eq_true_iff.mp h
    obtain ⟨hlow, h1, h140, hbit, pulse⟩ := pulse_of_cellOn hcell
    obtain ⟨u, later, time, hread⟩ := readBits_of_pulse hs hlow h1 h140 pulse (m + cells.length) b
    have hend : u.time = cellEnd c s.time := time
    rw [← hend] at hcells
    obtain ⟨t, later', time', hread'⟩ := ih (later.swOe.trans hs) hcells (withBit b (m + cells.length) c.bit)
    refine ⟨t, later.trans later', by rw [time', hend]; rfl, ?_⟩
    rw [List.length_cons, ← Nat.add_assoc, hread, ← hbit, hread']
    simp [withBits]

/-- Eight cells are the byte they spell (R101). -/
theorem readBits_of_byte {cells : List Cell} {b : Byte} (hs : s.swOe = false) (h : cellsOn e.line cells s.time = true)
    (hbits : cells.map Cell.bit = bitsOfByte b) :
    ∃ t, Later s t ∧ t.time = cellsEnd cells s.time ∧ readBits params e 8 0 s = (b, t) := by
  have hlen : cells.length = 8 := by simpa [bitsOfByte] using congrArg List.length hbits
  obtain ⟨t, later, time, hread⟩ := readBits_of_cells hs h 0 0
  refine ⟨t, later, time, ?_⟩
  rw [hlen, hbits, withBits_eq_byteOfBits (by simp [bitsOfByte]), byteOfBits_bitsOfByte] at hread
  exact hread

/-! ## Frames -/

theorem cellsEnd_append (xs ys : List Cell) (t : Nat) : cellsEnd (xs ++ ys) t = cellsEnd ys (cellsEnd xs t) := by
  induction xs generalizing t with
  | nil => rfl
  | cons c xs ih => exact ih _

theorem cellsOn_append (line : Nat → Bool) (xs ys : List Cell) (t : Nat) :
    cellsOn line (xs ++ ys) t = (cellsOn line xs t && cellsOn line ys (cellsEnd xs t)) := by
  induction xs generalizing t with
  | nil => rfl
  | cons c xs ih => simp only [List.cons_append, cellsOn, cellsEnd, ih, Bool.and_assoc]

/-- The cells of some bytes leave these bytes in `RAW`, each at its index (R145). -/
theorem readFrame_of_cells {ks : List Nat} {bytes : List Byte} {cells : List Cell} (hs : s.swOe = false)
    (hlen : bytes.length = ks.length) (hbits : cells.map Cell.bit = bytes.flatMap bitsOfByte)
    (h : cellsOn e.line cells s.time = true) :
    Later { s with raw := putBytes ks bytes s.raw } (readFrame params e ks s) ∧
      (readFrame params e ks s).time = cellsEnd cells s.time := by
  induction ks generalizing bytes cells s with
  | nil =>
    obtain rfl := List.length_eq_zero_iff.mp hlen
    obtain rfl := List.map_eq_nil_iff.mp hbits
    exact ⟨.refl s, rfl⟩
  | cons k ks ih =>
    obtain ⟨b, bytes, rfl⟩ := List.exists_cons_of_length_eq_add_one hlen
    obtain ⟨byte, others, rfl, hbyte, hothers⟩ := List.map_eq_append_iff.mp hbits
    rw [cellsOn_append, Bool.and_eq_true] at h
    obtain ⟨t, later, time, hread⟩ := readBits_of_byte hs h.1 hbyte
    obtain ⟨now, ep, n, rfl, hnow⟩ := later
    rw [readFrame, show params.swNbits = 8 from rfl, hread, cellsEnd_append, ← time]
    rw [← time] at h
    obtain ⟨⟨now', ep', n', heq, hnow'⟩, time'⟩ := ih (s := { s with
      time := now, epoch := ep, draws := n, raw := putRaw k b s.raw }) hs (by simpa using hlen) hothers h.2
    exact ⟨⟨now', ep', n', heq, le_trans hnow hnow'⟩, time'⟩

/-- The start pulse takes 18030 ticks (R143). -/
theorem swsStart_params_time (s : State) : (swsStart params e s).time = s.time + 18030 := by
  rw [swsStart, delay_params_time, delay_params_time]
  exact Nat.add_assoc s.time 18000 30

/-- The response check passes a sensor's response, and ends where the first cell begins (R144). -/
theorem swsRespond_of_response {a b c : Nat} (hs : s.swOe = false) (h : responseOn e.line s.time a b c = true) :
    ∃ t, swsRespond params e s = (true, t) ∧ Later s t ∧ t.time = s.time + a + b + c := by
  simp only [responseOn, Bool.and_eq_true, decide_eq_true_eq, Bool.not_eq_true', levelFor_iff] at h
  obtain ⟨⟨⟨⟨⟨⟨⟨⟨ha, hb1⟩, hb⟩, hc1⟩, hc⟩, high1⟩, low⟩, high2⟩, hend⟩ := h
  obtain ⟨s1, h1, later1, time1⟩ := waitLevel_after (e := e) (src := e.line) (v := false) (budget := 100) (by decide) ha high1
    (low 0 hb1)
  rw [← time1] at low high2 hend
  obtain ⟨s2, h2, later2, time2⟩ := waitLevel_after (e := e) (src := e.line) (v := true) (budget := 100) (by decide) hb low
    (high2 0 hc1)
  rw [← time2] at high2 hend
  obtain ⟨s3, h3, later3, time3⟩ := waitLevel_after (e := e) (src := e.line) (v := false) (budget := 100) (by decide) hc high2
    hend
  have released1 := later1.swOe.trans hs
  refine ⟨s3, ?_, (later1.trans later2).trans later3, by rw [time3, time2, time1]⟩
  rw [swsRespond, swLine_of_released hs, show params.swTimeout = 100 from rfl, h1]
  dsimp only
  rw [swLine_of_released released1, h2]
  dsimp only
  rw [swLine_of_released (later2.swOe.trans released1), h3]

/-- A response and 40 cells lead the read to the checksum step, with the five bytes they spell in `RAW` (R142). -/
theorem swsReadCmd_of_frame {a b c : Nat} {cells : List Cell} {bytes : List Byte}
    (hresponse : responseOn e.line (s.time + 18030) a b c = true) (hlen : bytes.length = 5)
    (hbits : cells.map Cell.bit = bytes.flatMap bitsOfByte)
    (hcells : cellsOn e.line cells (s.time + 18030 + a + b + c) = true) :
    ∃ u, Later { s with epochValid := false, swOe := false, raw := putBytes (List.range 5) bytes s.raw } u ∧
      u.time = cellsEnd cells (s.time + 18030 + a + b + c) ∧ swsReadCmd params e s = swsCheck e u := by
  have start := swsStart_later params e s
  have hs : (swsStart params e s).swOe = false := rfl
  rw [← swsStart_params_time (e := e)] at hresponse hcells ⊢
  obtain ⟨s1, respond, later, time⟩ := swsRespond_of_response hs hresponse
  rw [← time] at hcells ⊢
  obtain ⟨frame, time'⟩ := readFrame_of_cells (ks := List.range 5) (later.swOe.trans hs) (by simpa using hlen) hbits hcells
  obtain ⟨now, ep, n, rfl, hnow⟩ := start.trans later
  obtain ⟨now', ep', n', heq, hnow'⟩ := frame
  refine ⟨_, ⟨now', ep', n', heq, le_trans hnow hnow'⟩, time', ?_⟩
  rw [swsReadCmd, respond]
  rfl

end

/-! ## What a cell and a frame read as -/

/-- Settles O21: the sample decides the bit, whatever the wait for low answers. -/
theorem bitReadsOneAboveFortyTicks : Obligations.BitReadsOneAboveFortyTicks := by
  intro e s j L hs hj h1 hlow hhigh hfall
  have pulse : Pulse e.line s.time j L := ⟨hlow, hhigh, hfall⟩
  refine ⟨?_, fun hL => ?_⟩
  · obtain ⟨u, _, _, hread⟩ := readBits_of_rise hs hj hlow (hhigh 0 h1) 0 0
    have hbit : (readBits params e 1 0 s).1 = withBit 0 0 (decide (41 ≤ L)) := by
      rw [hread, pulse.sample]
      split <;> rfl
    rw [hbit]
    by_cases hL : 41 ≤ L
    · rw [decide_eq_true hL, if_pos hL]; rfl
    · rw [decide_eq_false hL, if_neg hL]; rfl
  · obtain ⟨t, _, time, hread⟩ := readBits_of_pulse hs hj h1 hL pulse 0 0
    rw [hread]
    exact time

/-- Settles O22: the five bytes reach `RAW`, and the checksum step decides on them. -/
theorem sensorFrameIsReceived : Obligations.SensorFrameIsReceived := by
  intro e s a b c cells h f t g k hresponse hbits hcells
  obtain ⟨u, ⟨now, ep, n, rfl, _⟩, time, hread⟩ := swsReadCmd_of_frame hresponse rfl hbits hcells
  refine ⟨swsReadCmd params e s, rfl, ?_⟩
  have hraw : putBytes (List.range 5) [h, f, t, g, k] s.raw = ⟨h, f, t, g, k⟩ := rfl
  rw [hread, ← time, hraw]
  by_cases hsum : checksumHolds ⟨h, f, t, g, k⟩ = true
  · rw [swsCheck_of_checksum e hsum, decide_eq_true ((checksumHolds_iff h f t g k).mp hsum)]
    exact ⟨rfl, rfl, rfl, rfl, rfl⟩
  · rw [swsCheck_of_not_checksum e hsum, decide_eq_false (mt (checksumHolds_iff h f t g k).mpr hsum)]
    exact ⟨rfl, rfl, rfl, rfl, rfl⟩

end Sys2Proof.Machine

/-! Proofs for 30_encoding.md, the measurement: its result and its time, whatever the echo line does (R172 to R180). -/

namespace Sys2Proof.Machine

section

variable {p : Params} {e : Env} {s : State}

/-! ## The result -/

/-- A distance is at most the ceiling, and any other result is the one for out of range (R177). -/
theorem rangeResult_params (d : Nat) : (rangeResult params d).toNat ≤ 20 ∨ (rangeResult params d).toNat = 999 := by
  unfold rangeResult
  split
  · exact .inr rfl
  · next h =>
    have hle : d * params.rngNum / params.rngDen ≤ 20 := Nat.not_lt.mp h
    rw [BitVec.toNat_ofNat, Nat.mod_eq_of_lt (by omega)]
    exact .inl hle

/-- The echo waits report a sentinel or a distance (R174 to R177). -/
theorem rngEcho_result : (rngEcho params e s).1.toNat ≤ 20 ∨ (rngEcho params e s).1.toNat = 999 := by
  unfold rngEcho
  split
  · exact .inl (Nat.zero_le _)
  · split
    · exact .inr rfl
    · exact rangeResult_params _

/-! ## The time -/

/-- The polling loop does not go past the budget's last tick (R127). -/
theorem scan_le {src : Nat → Bool} {v : Bool} {epoch budget : Nat} (hb : budget < p.tmrWrap) (fuel t : Nat)
    (hge : epoch ≤ t) (hle : t ≤ epoch + budget) : (scan p src v epoch budget fuel t).2 ≤ epoch + budget := by
  induction fuel generalizing t with
  | zero => exact hle
  | succ n ih =>
    unfold scan
    split
    · exact hle
    · split
      · exact hle
      · next hbudget =>
        rw [counterAt_of_lt p epoch t hge (by omega)] at hbudget
        exact ih (t + 1) (by omega) (by omega)

/-- A wait entered within its budget ends within it, but for the latency (R127). -/
theorem waitLevelUntil_time_le {src : Nat → Bool} {v : Bool} {budget : Nat} (hb : budget < p.tmrWrap) (hge : s.epoch ≤ s.time)
    (hle : s.time ≤ s.epoch + budget) : (waitLevelUntil p e src v budget s).2.time ≤ s.epoch + budget + p.pollSlack := by
  have bound := scan_le (src := src) (v := v) hb (budget + 1) s.time hge hle
  have hslack : e.latency s.draws % (p.pollSlack + 1) ≤ p.pollSlack := Nat.le_of_lt_succ (Nat.mod_lt _ (Nat.succ_pos _))
  unfold waitLevelUntil
  generalize scan p src v s.epoch budget (budget + 1) s.time = r at bound ⊢
  rcases r with ⟨_ | _, t⟩
  · exact Nat.le_add_right_of_le bound
  · exact Nat.add_le_add bound hslack

/-- The two echo waits take at most their two budgets, the second counted from the rise (R174, R175). -/
theorem rngEcho_time_le (h : p.rngTimeout * 2 + p.pollSlack < p.tmrWrap) :
    (rngEcho p e (tmrStart s)).2.time ≤ s.time + (p.rngTimeout * 2 + p.pollSlack * 2) := by
  obtain ⟨hepoch, hge, hle⟩ := echoRise_bounds (p := p) (e := e) (s := s) (by omega)
  unfold rngEcho
  rw [waitLevel] at hepoch hge hle
  generalize waitLevelUntil p e e.echo true p.rngTimeout (tmrStart s) = r at hepoch hge hle ⊢
  rcases r with ⟨_ | _, s1⟩
  · dsimp only at hle ⊢
    omega
  · dsimp only at hepoch hge hle ⊢
    have hcount : elapsed p s1 = s1.time - s1.epoch := counterAt_of_lt _ _ _ (by omega) (by omega)
    have fall := waitLevelUntil_time_le (p := p) (e := e) (s := s1) (src := e.echo) (v := false)
      (budget := elapsed p s1 + p.rngTimeout) (by omega) (by omega) (by omega)
    generalize waitLevelUntil p e e.echo false (elapsed p s1 + p.rngTimeout) s1 = r at fall ⊢
    rcases r with ⟨_ | _, s2⟩ <;> dsimp only at fall ⊢ <;> omega

/-- The trigger pulse takes 12 ticks (R173). -/
theorem rngTrigger_params_time (s : State) : (rngTrigger params e s).time = s.time + 12 := by
  rw [rngTrigger, tmrStart_time, delay_params_time, delay_params_time]; rfl

/-- A measurement with the unit: the trigger pulse, the echo waits, and the result they report. -/
theorem rngMeasure_params (s : State) : rngMeasure params e s =
    succeed e { (rngEcho params e (rngTrigger params e s)).2 with result := (rngEcho params e (rngTrigger params e s)).1 } :=
  rfl

end

/-- Settles O25: the waits report a sentinel or a distance, and take at most 30000 ticks each after the pulse. -/
theorem rngMeasureCompletesWithASentinelOrADistance : Obligations.RngMeasureCompletesWithASentinelOrADistance := by
  refine ⟨fun s => ⟨rngMeasure params env s, rfl, ?_, ?_⟩, fun e s => ?_⟩
  · rw [rngMeasure_params]; exact rngEcho_result
  · obtain ⟨now, ep, n, heq, _⟩ := (rngTrigger_later params env s).trans (rngEcho_later ..)
    rw [rngMeasure_params, heq]
    rfl
  · have start := rngTrigger_params_time (e := e) s
    have lower := (Grows.later (rngEcho_later params e (rngTrigger params e s))).time
    have upper : (rngEcho params e (rngTrigger params e s)).2.time ≤ (rngTrigger params e s).time + 60000 :=
      rngEcho_time_le (by decide)
    have total : (rngMeasure params e s).time =
        (rngEcho params e (rngTrigger params e s)).2.time + e.duration ((rngMeasure params e s).draws - 1) := rfl
    refine ⟨rngMeasure params e s, (rngEcho params e (rngTrigger params e s)).2.time - s.time, rfl, by omega, by omega, ?_⟩
    rw [total, Nat.add_sub_cancel' (by omega)]

end Sys2Proof.Machine

/-! Proofs for 40_timer.md: the wait with a timeout and the three timer commands (R121 to R132). -/

namespace Sys2Proof.Machine

section

variable {p : Params} {e : Env} {s : State}

/-- The poll latency takes at most `POLL_SLACK` ticks (R126). -/
theorem latency_time_le {now : Nat} (h : s.time ≤ now) : (latency p e s).time ≤ now + p.pollSlack := by
  rw [latency_time]
  exact Nat.add_le_add h (Nat.le_of_lt_succ (Nat.mod_lt _ (Nat.succ_pos _)))

/-- With a valid epoch, not in the future, the command reports the ticks since it modulo 65536 (R121, R123, R130). -/
theorem elapsedResult_of_valid (hv : s.epochValid = true) (hle : s.epoch ≤ s.time) :
    (elapsedResult params e s).toNat = (s.time - s.epoch) % 65536 := by
  have counter : elapsed params s = (s.time - s.epoch) % 65536 := counterAt_eq params _ _ (by decide) hle
  rw [elapsedResult, if_pos hv, counter, BitVec.toNat_ofNat]
  exact Nat.mod_mod ..

/-- With no valid epoch the command reports a free value (R131). -/
theorem elapsedResult_of_not_valid (p : Params) (e : Env) (hv : s.epochValid = false) :
    elapsedResult p e s = e.elapsed s.draws :=
  if_neg (Bool.eq_false_iff.mp hv)

/-- The delay command's time: its operand, the overshoot, and the duration draw that follows it (R124, R132). -/
theorem tmrDelayCmd_time (p : Params) (e : Env) (s : State) : (tmrDelayCmd p e s).time =
    s.time + s.arg0.toNat + e.overshoot s.draws % (p.delaySlack + 1) + e.duration (s.draws + 1) :=
  rfl

/-- The delay command touches the epoch and its flag, the flags, the time and the draw index (R132). -/
theorem tmrDelayCmd_frame (p : Params) (e : Env) (s : State) : tmrDelayCmd p e s = { s with
    epoch := e.epoch s.draws, epochValid := false, stOk := true, stIll := false, seq := .idle
    time := (tmrDelayCmd p e s).time, draws := s.draws + 2 } :=
  rfl

end

/-- Settles O16: a wait ends at the first tick with the level and its latency, or at the budget's last tick. -/
theorem waitLevelReturnsAtTheFirstMatch : Obligations.WaitLevelReturnsAtTheFirstMatch := by
  intro p e src v budget s hb
  rcases waitLevel_cases p e src v s hb with ⟨d, hge, hle, hd, hfirst, heq⟩ | ⟨hnone, heq⟩ <;> rw [heq]
  · refine ⟨_, _, rfl, latency_time_le hle, iff_of_true rfl ⟨d, hge, hle, hd⟩, nofun, fun d' hge' _ hd' hfirst' => ?_⟩
    obtain rfl : d' = d := le_antisymm (not_lt.mp fun h => hfirst' d hge h hd) (not_lt.mp fun h => hfirst d' hge' h hd')
    exact ⟨Nat.le_add_right .., latency_time_le (le_refl _)⟩
  · refine ⟨_, _, rfl, Nat.le_add_right .., iff_of_false Bool.false_ne_true ?_, fun _ => rfl, fun d hge hle hd _ => ?_⟩
    · exact fun ⟨t, hge, hle, ht⟩ => hnone t hge hle ht
    · exact absurd hd (hnone d hge hle)

/-- Settles O13: the command is the counter's restart and the end of a command that succeeds. -/
theorem tmrStartMovesTheEpoch : Obligations.TmrStartMovesTheEpoch :=
  ⟨rfl, fun _ => rfl⟩

/-- Settles O14: the result is the counter or the free value, and nothing moves the epoch. -/
theorem tmrElapsedReportsTheCounter : Obligations.TmrElapsedReportsTheCounter := by
  refine ⟨rfl, fun s hle => ⟨tmrElapsedCmd params env s, rfl, fun hv => ?_, fun hv => ?_, rfl, Nat.le_add_right ..⟩⟩
  · exact elapsedResult_of_valid hv (hle hv)
  · exact elapsedResult_of_not_valid params env hv

/-- Settles O15: the overshoot is a draw up to `DELAY_SLACK`, which is 0 in the reference configuration (R10). -/
theorem tmrDelayWaitsItsOperand : Obligations.TmrDelayWaitsItsOperand := by
  refine ⟨rfl, fun s => ?_, fun p e s => ?_⟩
  · have htime : (tmrDelayCmd params env s).time = s.time + s.arg0.toNat + env.duration (s.draws + 1) := by
      rw [tmrDelayCmd_time, show params.delaySlack + 1 = 1 from rfl, Nat.mod_one, Nat.add_zero]
    rw [← htime]
    exact congrArg Host.Outcome.next (tmrDelayCmd_frame params env s)
  · exact ⟨e.overshoot s.draws % (p.delaySlack + 1), tmrDelayCmd p e s, Nat.le_of_lt_succ (Nat.mod_lt _ (Nat.succ_pos _)), rfl,
      tmrDelayCmd_time p e s, tmrDelayCmd_frame p e s⟩

end Sys2Proof.Machine

/-! Proofs for 41_single_wire.md: how a read ends and how long it takes whatever the line does, what it makes of a stuck line
and of bytes cut short, and the rows of the pulses and of a wait without a bound (R142 to R155). -/

namespace Sys2Proof.Machine

open Sys2Proof.Safety

section

variable {e : Env} {s : State}

/-! ## How long a read takes -/

theorem latency_params_time (s : State) : (latency params e s).time = s.time := by
  rw [latency_time, show params.pollSlack + 1 = 1 from rfl, Nat.mod_one, Nat.add_zero]

/-- A wait ends within its budget, a timeout at its last tick (R127). -/
theorem waitLevel_params_time (src : Nat → Bool) (v : Bool) {budget : Nat} (hb : budget < 65536) (s : State) :
    (∃ t, waitLevel params e src v budget s = (true, t) ∧ s.time ≤ t.time ∧ t.time ≤ s.time + budget) ∨
    (∃ t, waitLevel params e src v budget s = (false, t) ∧ t.time = s.time + budget) := by
  rcases waitLevel_cases params e src v s hb with ⟨d, h1, h2, _, _, h⟩ | ⟨_, h⟩
  · refine .inl ⟨_, h, ?_⟩
    rw [latency_params_time]
    exact ⟨h1, h2⟩
  · exact .inr ⟨_, h, rfl⟩

/-- The response check takes at most its three budgets, and a whole one if it fails (R144). -/
theorem swsRespond_params_time (s : State) :
    (∃ t, swsRespond params e s = (true, t) ∧ s.time ≤ t.time ∧ t.time ≤ s.time + 300) ∨
    (∃ t, swsRespond params e s = (false, t) ∧ s.time + 100 ≤ t.time ∧ t.time ≤ s.time + 300) := by
  have wait := fun src v => waitLevel_params_time (e := e) src v (budget := params.swTimeout) (by decide)
  have budget : params.swTimeout = 100 := rfl
  unfold swsRespond
  rcases wait (swLine e s) false s with ⟨s1, h1, _, _⟩ | ⟨s1, h1, _⟩ <;> rw [h1] <;> dsimp only
  · rcases wait (swLine e s1) true s1 with ⟨s2, h2, _, _⟩ | ⟨s2, h2, _⟩ <;> rw [h2] <;> dsimp only
    · rcases wait (swLine e s2) false s2 with ⟨s3, h3, _, _⟩ | ⟨s3, h3, _⟩ <;> rw [h3]
      · exact .inl ⟨s3, rfl, by omega, by omega⟩
      · exact .inr ⟨s3, rfl, by omega, by omega⟩
    · exact .inr ⟨s2, rfl, by omega, by omega⟩
  · exact .inr ⟨s1, rfl, by omega, by omega⟩

/-- A bit takes the sample delay and at most two budgets, or the budget of a rise that does not come; the byte ends there or
goes on (R146 to R148). -/
theorem readBits_succ_time (n : Nat) (b : Byte) (s : State) :
    ∃ b' t, s.time + 40 ≤ t.time ∧ t.time ≤ s.time + 240 ∧
      (readBits params e (n + 1) b s = (b', t) ∨ readBits params e (n + 1) b s = readBits params e n b' t) := by
  have wait := fun src v => waitLevel_params_time (e := e) src v (budget := params.swTimeout) (by decide)
  have budget : params.swTimeout = 100 := rfl
  rw [readBits]
  rcases wait (swLine e s) true s with ⟨s1, h1, _, _⟩ | ⟨s1, h1, _⟩ <;> rw [h1] <;> dsimp only
  · have sampled : (delay params e params.swSampleDelay s1).time = s1.time + 40 := delay_params_time _
    rcases wait (swLine e (delay params e params.swSampleDelay s1)) false (delay params e params.swSampleDelay s1) with
      ⟨s3, h3, _, _⟩ | ⟨s3, h3, _⟩ <;> rw [h3]
    · exact ⟨_, s3, by omega, by omega, .inr rfl⟩
    · exact ⟨_, s3, by omega, by omega, .inl rfl⟩
  · exact ⟨b, s1, by omega, by omega, .inl rfl⟩

/-- However a byte ends, it has taken a sample delay or more. -/
theorem le_readBits_time (n : Nat) (b : Byte) (s : State) : s.time + 40 ≤ (readBits params e (n + 1) b s).2.time := by
  obtain ⟨b', t, hge, _, h | h⟩ := readBits_succ_time (e := e) n b s <;> rw [h]
  · exact hge
  · exact le_trans hge (Grows.later (readBits_later ..)).time

theorem readBits_time_le (n : Nat) (b : Byte) (s : State) : (readBits params e n b s).2.time ≤ s.time + 240 * n := by
  induction n generalizing b s with
  | zero => exact le_refl _
  | succ n ih =>
    obtain ⟨b', t, _, hle, h | h⟩ := readBits_succ_time (e := e) n b s <;> rw [h]
    · dsimp only; omega
    · have rest := ih b' t
      omega

/-- A frame takes its bytes' time, whatever they are (R145, R153). -/
theorem readFrame_params_time (ks : List Nat) (s : State) :
    s.time + 40 * ks.length ≤ (readFrame params e ks s).time ∧
      (readFrame params e ks s).time ≤ s.time + 1920 * ks.length := by
  induction ks generalizing s with
  | nil => exact ⟨le_refl _, le_refl _⟩
  | cons k ks ih =>
    have lower : s.time + 40 ≤ (readBits params e params.swNbits 0 s).2.time := le_readBits_time 7 0 s
    have upper : (readBits params e params.swNbits 0 s).2.time ≤ s.time + 1920 := readBits_time_le 8 0 s
    rw [readFrame, List.length_cons]
    dsimp only
    generalize readBits params e params.swNbits 0 s = r at lower upper ⊢
    obtain ⟨hge, hle⟩ := ih { r.2 with raw := putRaw k r.1 r.2.raw }
    dsimp only at hge hle
    omega

theorem swsCheck_time (e : Env) (s : State) : (swsCheck e s).time = s.time + e.duration ((swsCheck e s).draws - 1) := by
  rcases swsCheck_cases e s with h | ⟨_, h⟩ <;> rw [h] <;> rfl

/-- A read takes the start pulse, and a budget or the five bytes; at most every budget there is (R153). -/
theorem swsReadCmd_params_time (e : Env) (s : State) :
    ∃ d, 18130 ≤ d ∧ d ≤ 27930 ∧
      (swsReadCmd params e s).time = s.time + d + e.duration ((swsReadCmd params e s).draws - 1) := by
  have start := swsStart_params_time (e := e) s
  have ends : ∃ now, s.time + 18130 ≤ now ∧ now ≤ s.time + 27930 ∧
      (swsReadCmd params e s).time = now + e.duration ((swsReadCmd params e s).draws - 1) := by
    rw [swsReadCmd]
    rcases swsRespond_params_time (e := e) (swsStart params e s) with ⟨t, h, _, _⟩ | ⟨t, h, _, _⟩ <;> rw [h]
    · have frame : t.time + 200 ≤ (readFrame params e (List.range params.swNbytes) t).time ∧
          (readFrame params e (List.range params.swNbytes) t).time ≤ t.time + 9600 := readFrame_params_time (List.range 5) t
      exact ⟨_, by omega, by omega, swsCheck_time ..⟩
    · exact ⟨t.time, by omega, by omega, rfl⟩
  obtain ⟨now, hge, hle, h⟩ := ends
  refine ⟨now - s.time, by omega, by omega, ?_⟩
  rw [h, Nat.add_sub_cancel' (by omega)]

end

/-! ## How a read ends -/

/-- Settles O17: a read that has ended touches only what R93 lists, and is no shorter than the start pulse and one budget. -/
theorem swsReadCompletesReleased : Obligations.SwsReadCompletesReleased := by
  intro s
  obtain ⟨d, hd, _, time⟩ := swsReadCmd_params_time env s
  refine ⟨swsReadCmd params env s, rfl, ?_⟩
  have duration : s.time + 18130 ≤ (swsReadCmd params env s).time := by omega
  obtain ⟨raw, u, ⟨now, ep, n, rfl, _⟩, h | ⟨_, h⟩⟩ := swsReadCmd_ended params env s <;> rw [h] at duration ⊢
  · exact ⟨rfl, rfl, rfl, duration, rfl⟩
  · exact ⟨rfl, rfl, rfl, duration, rfl⟩

/-- Settles O18: a read ends with a commit of bytes that pass the checksum, or fails. -/
theorem swsReadCommitsOnlyAnAcceptedFrame : Obligations.SwsReadCommitsOnlyAnAcceptedFrame := by
  intro s
  refine ⟨swsReadCmd params env s, rfl, ?_⟩
  obtain ⟨raw, u, ⟨now, ep, n, rfl, _⟩, h | ⟨hsum, h⟩⟩ := swsReadCmd_ended params env s <;> rw [h]
  · exact ⟨nofun, fun _ => ⟨rfl, rfl⟩⟩
  · exact ⟨fun _ => ⟨hsum, rfl, rfl⟩, nofun⟩

/-- Settles O20: the start pulse, then a budget or five bytes at the least, every budget at the most. -/
theorem swsReadIsBounded : Obligations.SwsReadIsBounded := by
  intro e s
  obtain ⟨d, hge, hle, time⟩ := swsReadCmd_params_time e s
  exact ⟨swsReadCmd params e s, d, rfl, hge, hle, time⟩

section

variable {e : Env} {s : State}

/-! ## Bytes cut short -/

/-- A level not seen within the budget times the wait out at its last tick (R127). -/
theorem waitLevel_never {src : Nat → Bool} {v : Bool} {budget : Nat} (hb : budget < 65536)
    (hno : ∀ u, u ≤ budget → src (s.time + u) = !v) :
    ∃ t, waitLevel params e src v budget s = (false, t) ∧ Later s t ∧ t.time = s.time + budget := by
  have hne : ∀ u, s.time ≤ u → u ≤ s.time + budget → src u ≠ v := by
    intro u h1 h2
    have h := hno (u - s.time) (by omega)
    rw [Nat.add_sub_cancel' h1] at h
    rw [h]; exact Bool.not_ne_self v
  have timeout := waitLevel_timeout params e s hb hne
  exact ⟨_, timeout, (Later.waitLevel ..).pair timeout, rfl⟩

/-- A rise that does not come ends the byte with the bits read so far (R147). -/
theorem readBits_of_silence (hs : s.swOe = false) (hlow : ∀ u, u ≤ 100 → e.line (s.time + u) = false) (n : Nat) (b : Byte) :
    ∃ t, readBits params e (n + 1) b s = (b, t) ∧ Later s t ∧ t.time = s.time + 100 := by
  obtain ⟨t, wait, later, time⟩ := waitLevel_never (e := e) (src := e.line) (v := true) (by decide) hlow
  refine ⟨t, ?_, later, time⟩
  rw [readBits, swLine_of_released hs, show params.swTimeout = 100 from rfl, wait]

/-- A fall that does not come ends the byte with the bit just sampled, a 1, as its last (R148). -/
theorem readBits_of_stuck {j : Nat} (hs : s.swOe = false) (hj : j ≤ 100) (hlow : ∀ u, u < j → e.line (s.time + u) = false)
    (hhigh : ∀ u, u ≤ 140 → e.line (s.time + j + u) = true) (n : Nat) (b : Byte) :
    ∃ t, readBits params e (n + 1) b s = (withBit b n true, t) ∧ Later s t ∧ t.time = s.time + j + 140 := by
  obtain ⟨u, later, time, hread⟩ := readBits_of_rise hs hj hlow (hhigh 0 (by decide)) n b
  have still : ∀ v, v ≤ 100 → e.line (u.time + v) = !false := by
    intro v hv
    rw [time, Nat.add_assoc (s.time + j)]
    exact hhigh (40 + v) (by omega)
  obtain ⟨t, wait, later', time'⟩ := waitLevel_never (e := e) (src := e.line) (v := false) (by decide) still
  refine ⟨t, ?_, later.trans later', by rw [time', time]⟩
  rw [hread, wait, hhigh 40 (by decide)]
  rfl

theorem withBits_append (m : Nat) (vs : List Bool) (v : Bool) (b : Byte) :
    withBits m (vs ++ [v]) b = withBit (withBits (m + 1) vs b) m v := by
  induction vs generalizing b with
  | nil => rfl
  | cons w vs ih =>
    have hindex : m + (vs ++ [v]).length = m + 1 + vs.length := by simp; omega
    rw [List.cons_append, withBits, ih, hindex]
    rfl

/-- The bits from `m` up are the values given, the highest first, and the others as they were. -/
theorem getLsbD_withBits {m i : Nat} {bits : List Bool} (b : Byte) (hm : m + bits.length ≤ 8) (hi : i < 8) :
    (withBits m bits b).getLsbD i =
      if m ≤ i ∧ i < m + bits.length then bits.getD (m + bits.length - 1 - i) false else b.getLsbD i := by
  induction bits generalizing b with
  | nil => rw [if_neg (by simp)]; rfl
  | cons v vs ih =>
    rw [List.length_cons] at hm ⊢
    rw [withBits, ih _ (by omega), getLsbD_withBit _ _ _ _ hi]
    rcases Nat.lt_trichotomy i (m + vs.length) with h | h | h
    · rw [if_neg (Nat.ne_of_lt h), show m + (vs.length + 1) - 1 - i = m + vs.length - 1 - i + 1 by omega, List.getD_cons_succ]
      simp only [h, and_true, show i < m + (vs.length + 1) by omega]
    · rw [if_neg (by omega), if_pos h, if_pos (by omega), show m + (vs.length + 1) - 1 - i = 0 by omega, List.getD_cons_zero]
    · rw [if_neg (by omega), if_neg (by omega), if_neg (by omega)]

/-- The bits of a byte cut short stand from bit 7 down in the order read, and every bit below is 0 (R147, R148). -/
theorem getLsbD_withBits_zero {m n : Nat} {bits : List Bool} (hm : m + bits.length = 8) (hn : n < 8) :
    (withBits m bits 0).getLsbD (7 - n) = bits.getD n false := by
  rw [getLsbD_withBits 0 (by omega) (by omega)]
  by_cases h : n < bits.length
  · rw [if_pos (by omega), show m + bits.length - 1 - (7 - n) = n by omega]
  · rw [if_neg (by omega), List.getD_eq_default _ _ (by omega)]
    exact BitVec.getLsbD_zero

/-! ## Frames of five equal bytes -/

/-- From tick `t` the line gives this byte, and the block looks for the next one at tick `t'`. -/
def ByteOn (e : Env) (byte : Byte) (t t' : Nat) : Prop :=
  ∀ s : State, s.swOe = false → s.time = t → ∃ u, readBits params e 8 0 s = (byte, u) ∧ Later s u ∧ u.time = t'

theorem byteOn_of_silence {t : Nat} (hlow : ∀ u, u ≤ 100 → e.line (t + u) = false) : ByteOn e 0 t (t + 100) := by
  rintro s hs rfl
  exact readBits_of_silence hs hlow 7 0

theorem byteOn_of_stuck {t j : Nat} (hj : j ≤ 100) (hlow : ∀ u, u < j → e.line (t + u) = false)
    (hhigh : ∀ u, u ≤ 140 → e.line (t + j + u) = true) : ByteOn e 0x80 t (t + j + 140) := by
  rintro s hs rfl
  exact readBits_of_stuck hs hj hlow hhigh 7 0

/-- Bytes that follow each other leave each its value in `RAW` (R145). -/
theorem readFrame_of_bytes {ks : List Nat} {byte : Byte} {start : Nat → Nat} (hs : s.swOe = false) (h0 : s.time = start 0)
    (hbytes : ∀ i, i < ks.length → ByteOn e byte (start i) (start (i + 1))) :
    Later { s with raw := putBytes ks (List.replicate ks.length byte) s.raw } (readFrame params e ks s) ∧
      (readFrame params e ks s).time = start ks.length := by
  induction ks generalizing s start with
  | nil => exact ⟨.refl s, h0⟩
  | cons k ks ih =>
    obtain ⟨t, hread, ⟨now, ep, n, rfl, hnow⟩, time⟩ := hbytes 0 (Nat.succ_pos _) s hs h0
    rw [readFrame, show params.swNbits = 8 from rfl, hread]
    obtain ⟨⟨now', ep', n', heq, hnow'⟩, time'⟩ := ih (s := { s with
      time := now, epoch := ep, draws := n, raw := putRaw k byte s.raw }) (start := fun i => start (i + 1)) hs time
      fun i hi => hbytes (i + 1) (Nat.succ_lt_succ hi)
    exact ⟨⟨now', ep', n', heq, le_trans hnow hnow'⟩, time'⟩

/-- A response and five equal bytes lead the read to the checksum step with these in `RAW` (R142). -/
theorem swsReadCmd_of_bytes {a b c : Nat} {byte : Byte} {start : Nat → Nat}
    (hresponse : responseOn e.line (s.time + 18030) a b c = true) (h0 : start 0 = s.time + 18030 + a + b + c)
    (hbytes : ∀ i, i < 5 → ByteOn e byte (start i) (start (i + 1))) :
    ∃ u, Later { s with epochValid := false, swOe := false, raw := ⟨byte, byte, byte, byte, byte⟩ } u ∧
      u.time = start 5 ∧ swsReadCmd params e s = swsCheck e u := by
  rw [← swsStart_params_time (e := e)] at hresponse h0
  obtain ⟨s1, respond, later, time⟩ := swsRespond_of_response rfl hresponse
  obtain ⟨frame, time'⟩ := readFrame_of_bytes (ks := List.range 5) (later.swOe.trans rfl) (time.trans h0.symm) hbytes
  obtain ⟨now, ep, n, rfl, hnow⟩ := (swsStart_later params e s).trans later
  obtain ⟨now', ep', n', heq, hnow'⟩ := frame
  refine ⟨_, ⟨now', ep', n', heq, le_trans hnow hnow'⟩, time', ?_⟩
  rw [swsReadCmd, respond]
  rfl

/-- The ticks at which the bytes start on a line that rises `j` ticks after `t` and stays high (R155). -/
def stuckStart (t j : Nat) : Nat → Nat
  | 0 => t
  | i + 1 => t + j + 140 * (i + 1)

theorem byteOn_stuckStart {t j : Nat} (hj : j ≤ 100) (hlow : ∀ u, u < j → e.line (t + u) = false)
    (hhigh : ∀ now, t + j ≤ now → e.line now = true) (i : Nat) :
    ByteOn e 0x80 (stuckStart t j i) (stuckStart t j (i + 1)) := by
  cases i with
  | zero => exact byteOn_of_stuck hj hlow fun u _ => hhigh _ (Nat.le_add_right ..)
  | succ i =>
    exact byteOn_of_stuck (j := 0) (Nat.zero_le _) nofun fun u _ =>
      hhigh _ (by simp only [stuckStart]; omega)

/-! ## A line at one level -/

/-- A line that never changes fails the response check in one budget: it does not fall, or it falls and does not rise (R155). -/
theorem swsRespond_of_constant {level : Bool} (hs : s.swOe = false) (hline : ∀ t, e.line t = level) :
    ∃ t, swsRespond params e s = (false, t) ∧ Later s t ∧ t.time = s.time + 100 := by
  rw [swsRespond, swLine_of_released hs, show params.swTimeout = 100 from rfl]
  cases level with
  | true =>
    obtain ⟨t, h, later, time⟩ := waitLevel_never (e := e) (s := s) (src := e.line) (v := false) (budget := 100) (by decide)
      fun _ _ => hline _
    exact ⟨t, by rw [h], later, time⟩
  | false =>
    obtain ⟨s1, h1, later1, time1⟩ := waitLevel_after (e := e) (s := s) (src := e.line) (v := false) (budget := 100) (j := 0)
      (by decide) (by decide) nofun (hline _)
    obtain ⟨t, h2, later2, time2⟩ := waitLevel_never (e := e) (s := s1) (src := e.line) (v := true) (budget := 100) (by decide)
      fun _ _ => hline _
    refine ⟨t, ?_, later1.trans later2, by rw [time2, time1]⟩
    rw [h1]
    dsimp only
    rw [swLine_of_released (later1.swOe.trans hs), h2]

end

/-- Settles O19: a constant line fails the response check; one that stays high cuts every byte short after its first bit. -/
theorem stuckLinesFailTheResponse : Obligations.StuckLinesFailTheResponse := by
  refine ⟨fun e s level hline => ?_, fun e s a b c j hresponse hj hlow hhigh => ?_⟩
  · obtain ⟨t, respond, later, time⟩ := swsRespond_of_constant (e := e) (s := swsStart params e s) rfl hline
    rw [swsStart_params_time] at time
    obtain ⟨now, ep, n, rfl, _⟩ := (swsStart_later params e s).trans later
    refine ⟨swsReadCmd params e s, rfl, ?_⟩
    rw [swsReadCmd, respond]
    exact ⟨rfl, rfl, rfl, rfl, rfl, congrArg (· + _) time⟩
  · obtain ⟨u, ⟨now, ep, n, rfl, _⟩, time, hread⟩ := swsReadCmd_of_bytes hresponse rfl fun i _ =>
      byteOn_stuckStart hj hlow hhigh i
    refine ⟨swsReadCmd params e s, rfl, ?_⟩
    rw [hread, swsCheck_of_not_checksum e (show ¬checksumHolds ⟨0x80, 0x80, 0x80, 0x80, 0x80⟩ = true by decide)]
    exact ⟨rfl, rfl, rfl, rfl, rfl, congrArg (· + _) time⟩

/-- Settles O23: the byte is cut at the bit where the wait times out, and a silent frame is five bytes cut before their first. -/
theorem silentFrameIsAccepted : Obligations.SilentFrameIsAccepted := by
  refine ⟨fun e s cells hs hlen hcells hlow => ?_, fun e s cells j hs hlen hcells hj hlow hhigh => ?_,
    fun e s a b c hresponse hlow => ?_⟩
  · obtain ⟨m, hm⟩ := Nat.exists_eq_add_of_le' hlen
    obtain ⟨t, later, time, hread⟩ := readBits_of_cells hs hcells (m + 1) 0
    rw [← time] at hlow ⊢
    obtain ⟨u, hcut, _, time'⟩ := readBits_of_silence (later.swOe.trans hs) hlow m (withBits (m + 1) (cells.map Cell.bit) 0)
    rw [show m + 1 + cells.length = 8 by omega, hcut] at hread
    rw [hread]
    exact ⟨fun n hn => getLsbD_withBits_zero (by rw [List.length_map]; omega) hn, time'⟩
  · obtain ⟨m, hm⟩ := Nat.exists_eq_add_of_le' hlen
    obtain ⟨t, later, time, hread⟩ := readBits_of_cells hs hcells (m + 1) 0
    rw [← time] at hlow hhigh ⊢
    obtain ⟨u, hcut, _, time'⟩ :=
      readBits_of_stuck (later.swOe.trans hs) hj hlow hhigh m (withBits (m + 1) (cells.map Cell.bit) 0)
    rw [show m + 1 + cells.length = 8 by omega, hcut, ← withBits_append] at hread
    rw [hread]
    exact ⟨fun n hn => getLsbD_withBits_zero (by simp; omega) hn, time'⟩
  · obtain ⟨u, ⟨now, ep, n, rfl, _⟩, time, hread⟩ := swsReadCmd_of_bytes (byte := 0)
      (start := fun i => s.time + 18030 + a + b + c + 100 * i) hresponse rfl fun i hi =>
        byteOn_of_silence fun u hu => by rw [Nat.add_assoc]; exact hlow _ (by omega)
    refine ⟨swsReadCmd params e s, rfl, ?_⟩
    rw [hread, swsCheck_of_checksum e (show checksumHolds ⟨0, 0, 0, 0, 0⟩ = true by decide)]
    exact ⟨rfl, rfl, rfl, congrArg (· + _) time⟩

section

variable {p : Params} {e : Env} {s : State}

/-! ## The rows of a pulse -/

theorem seqRun_add (m n : Nat) (s : State) : seqRun p e (m + n) s = seqRun p e n (seqRun p e m s) := by
  induction m generalizing s with
  | zero => rw [Nat.zero_add]; rfl
  | succ m ih => rw [Nat.succ_add]; exact ih _

theorem seqRun_succ_eq (n : Nat) (s : State) : seqRun p e (n + 1) s = seqStep p e (seqRun p e n s) :=
  seqRun_add n 1 s

/-- Below the wrap the counter has the ticks since it was restarted (R123). -/
theorem elapsed_restartIn {ph : Seq} {k : Nat} (hk : k < p.tmrWrap) : elapsed p (atTick (s.time + k) (restartIn ph s)) = k := by
  have h := counterAt_of_lt p s.time (s.time + k) (Nat.le_add_right ..) (by omega)
  rwa [Nat.add_sub_cancel_left] at h

/-- The rows of a delay phase each let one tick pass, up to its length (R124, R160). -/
theorem seqRun_delay {ph : Seq} {n k : Nat} {done : State → State} (hn : n < p.tmrWrap) (hk : k ≤ n)
    (hrow : ∀ now, seqStep p e (atTick now (restartIn ph s)) = delayPhase p e n done (atTick now (restartIn ph s))) :
    seqRun p e k (restartIn ph s) = atTick (s.time + k) (restartIn ph s) := by
  induction k with
  | zero => rfl
  | succ k ih =>
    rw [seqRun_succ_eq, ih (Nat.le_of_succ_le hk), hrow, delayPhase, elapsed_restartIn (by omega), if_pos (Nat.lt_of_succ_le hk)]
    rfl

/-- The row after them leaves the phase, the delay over (R124, R160). -/
theorem seqRun_delay_done {ph : Seq} {n : Nat} {done : State → State} (hn : n < p.tmrWrap)
    (hrow : ∀ now, seqStep p e (atTick now (restartIn ph s)) = delayPhase p e n done (atTick now (restartIn ph s))) :
    seqRun p e (n + 1) (restartIn ph s) = done (inPhase ph (delay p e n s)) := by
  rw [seqRun_succ_eq, seqRun_delay hn (le_refl n) hrow, hrow, delayPhase, elapsed_restartIn hn, if_neg (Nat.lt_irrefl n)]
  rfl

theorem atTick_time (now : Nat) (s : State) : (atTick now s).time = now := rfl

theorem inPhase_time (ph : Seq) (s : State) : (inPhase ph s).time = s.time := rfl

/-! The four rows of the pulses are delay phases (R143, R160, R173). -/

theorem swStartLow_row (now : Nat) : seqStep p e (atTick now (restartIn .swStartLow s)) = delayPhase p e p.swStartLow
    (fun s => restartIn .swStartHigh { s with swOe := false }) (atTick now (restartIn .swStartLow s)) := rfl

theorem swStartHigh_row (now : Nat) : seqStep p e (atTick now (restartIn .swStartHigh s)) =
    delayPhase p e p.swStartHigh (restartIn .swRespLow1) (atTick now (restartIn .swStartHigh s)) := rfl

theorem rngSettle_row (now : Nat) : seqStep p e (atTick now (restartIn .rngSettle s)) = delayPhase p e p.rngSettle
    (fun s => restartIn .rngPulse { s with trig := true }) (atTick now (restartIn .rngSettle s)) := rfl

theorem rngPulse_row (now : Nat) : seqStep p e (atTick now (restartIn .rngPulse s)) = delayPhase p e p.rngPulse
    (fun s => restartIn .rngWaitRise { s with trig := false }) (atTick now (restartIn .rngPulse s)) := rfl

/-- The start pulse is over: the line is released after `SW_START_LOW` ticks (R143). -/
def swsReleased (p : Params) (e : Env) (s : State) : State :=
  { delay p e p.swStartLow { s with epochValid := false, swOe := true } with swOe := false }

theorem seqRun_swsBegin_low (hp : Timed p) {k : Nat} (hk : k ≤ p.swStartLow) :
    seqRun p e k (swsBegin s) = atTick (s.time + k) (swsBegin s) :=
  seqRun_delay (s := { s with epochValid := false, swOe := true }) hp.startLow hk swStartLow_row

theorem seqRun_swsBegin_released (hp : Timed p) :
    seqRun p e (p.swStartLow + 1) (swsBegin s) = restartIn .swStartHigh (swsReleased p e s) :=
  seqRun_delay_done (s := { s with epochValid := false, swOe := true }) hp.startLow swStartLow_row

theorem seqRun_swsBegin_high (hp : Timed p) {k : Nat} (hk : k ≤ p.swStartHigh) :
    seqRun p e (p.swStartLow + 1 + k) (swsBegin s) =
      atTick ((swsReleased p e s).time + k) (restartIn .swStartHigh (swsReleased p e s)) := by
  rw [seqRun_add, seqRun_swsBegin_released hp, seqRun_delay hp.startHigh hk swStartHigh_row]

theorem seqRun_swsBegin_respond (hp : Timed p) :
    seqRun p e (p.swStartLow + 1 + (p.swStartHigh + 1)) (swsBegin s) = restartIn .swRespLow1 (swsStart p e s) := by
  rw [seqRun_add, seqRun_swsBegin_released hp, seqRun_delay_done hp.startHigh swStartHigh_row]
  rfl

/-- The trigger rises, low for `RNG_SETTLE` ticks before (R173). -/
def rngSettled (p : Params) (e : Env) (s : State) : State :=
  { delay p e p.rngSettle { s with epochValid := false, trig := false } with trig := true }

theorem seqRun_rngMeasure_settle (hp : Timed p) (hunit : p.hasRng = true) {k : Nat} (hk : k ≤ p.rngSettle) :
    seqRun p e k (seqBegin p e .rngMeasure s) =
      atTick (s.time + k) (restartIn .rngSettle { s with epochValid := false, trig := false }) := by
  rw [seqBegin, if_pos hunit, seqRun_delay hp.settle hk rngSettle_row]

theorem seqRun_rngMeasure_settled (hp : Timed p) (hunit : p.hasRng = true) :
    seqRun p e (p.rngSettle + 1) (seqBegin p e .rngMeasure s) = restartIn .rngPulse (rngSettled p e s) := by
  rw [seqBegin, if_pos hunit, seqRun_delay_done hp.settle rngSettle_row]
  rfl

theorem seqRun_rngMeasure_pulse (hp : Timed p) (hunit : p.hasRng = true) {k : Nat} (hk : k ≤ p.rngPulse) :
    seqRun p e (p.rngSettle + 1 + k) (seqBegin p e .rngMeasure s) =
      atTick ((rngSettled p e s).time + k) (restartIn .rngPulse (rngSettled p e s)) := by
  rw [seqRun_add, seqRun_rngMeasure_settled hp hunit, seqRun_delay hp.pulse hk rngPulse_row]

theorem seqRun_rngMeasure_rise (hp : Timed p) (hunit : p.hasRng = true) :
    seqRun p e (p.rngSettle + 1 + (p.rngPulse + 1)) (seqBegin p e .rngMeasure s) =
      inPhase .rngWaitRise (rngTrigger p e s) := by
  rw [seqRun_add, seqRun_rngMeasure_settled hp hunit, seqRun_delay_done hp.pulse rngPulse_row]
  rfl

/-! ## A wait without a bound -/

/-- On a line at 1 a row of the unbounded wait for low lets one tick pass (R148). -/
theorem seqStep_of_unbounded_high {k i : Nat} {b : Byte} (hunbounded : p.lowWaitBounded = false)
    (hseq : s.seq = .swBitWaitLow k i b) (hs : s.swOe = false) (hline : e.line s.time = true) :
    seqStep p e s = waitTick s := by
  simp [seqStep, hseq, waitPhase, swLine_of_released hs, hline, hunbounded]

end

/-- Settles O59: each pulse is a delay phase, whose rows are its ticks, and one row that leaves it. -/
theorem startAndTriggerPulsesAreExact : Obligations.StartAndTriggerPulsesAreExact := by
  intro e s
  have hp : Timed params := timed_of_legal configErrors_params
  have released : (swsReleased params e s).time = s.time + 18000 := delay_params_time _
  have settled : (rngSettled params e s).time = s.time + 2 := delay_params_time _
  have respond : seqRun params e 18032 (swsBegin s) = _ := seqRun_swsBegin_respond hp
  have rise : seqRun params e 14 (seqBegin params e .rngMeasure s) = _ := seqRun_rngMeasure_rise hp rfl
  refine ⟨fun n hn => ?_, fun n h1 h2 => ?_, ?_, ?_, fun n hn => ?_, fun n h1 h2 => ?_, ?_, ?_, ?_⟩
  · rw [seqRun_swsBegin_low hp hn]
    exact ⟨rfl, rfl⟩
  · obtain ⟨k, rfl⟩ := Nat.exists_eq_add_of_le h1
    have high : seqRun params e (18001 + k) (swsBegin s) = _ := seqRun_swsBegin_high hp (show k ≤ 30 by omega)
    rw [high, released]
    refine ⟨rfl, rfl, ?_⟩
    rw [atTick_time]
    omega
  · rw [respond]; rfl
  · rw [respond]; exact swsStart_params_time s
  · rw [seqRun_rngMeasure_settle hp rfl hn]
    exact ⟨rfl, rfl⟩
  · obtain ⟨k, rfl⟩ := Nat.exists_eq_add_of_le h1
    have pulse : seqRun params e (3 + k) (seqBegin params e .rngMeasure s) = _ :=
      seqRun_rngMeasure_pulse hp rfl (show k ≤ 10 by omega)
    rw [pulse, settled]
    refine ⟨rfl, ?_⟩
    rw [atTick_time]
    omega
  · rw [rise]; rfl
  · rw [rise]; rfl
  · rw [rise, inPhase_time, rngTrigger_params_time]

/-- Settles O60: every row is one tick, by induction on their number. -/
theorem unboundedLowWaitHangs : Obligations.UnboundedLowWaitHangs := by
  intro p e s k i b n hunbounded hseq hs hline
  induction n generalizing s with
  | zero => rfl
  | succ n ih =>
    rw [seqRun, seqStep_of_unbounded_high hunbounded hseq hs (hline _ (le_refl _)),
      ih (waitTick s) hseq hs fun t ht => hline t (Nat.le_of_succ_le ht)]
    simp only [waitTick, Nat.add_assoc, Nat.add_comm 1]

end Sys2Proof.Machine

/-! Proofs for 42_ranging.md: what a measurement reports and how long it takes, by what the echo line does after the pulse (R172
to R177, R330). -/

namespace Sys2Proof.Machine

section

variable {e : Env} {s : State}

/-! ## A wait under a counter that is already running -/

/-- With no slack the latency draw passes no time (R10, R126). -/
theorem latency_params (s : State) : latency params e s = { s with draws := s.draws + 1 } := by
  rw [latency, show params.pollSlack + 1 = 1 from rfl, Nat.mod_one, Nat.add_zero]

/-- A line at the opposite level for `n` ticks from `start` does not show the level in them. -/
theorem ne_of_opposite {src : Nat → Bool} {v : Bool} {start n : Nat} (h : ∀ u, u < n → src (start + u) = !v) (t : Nat)
    (h1 : start ≤ t) (h2 : t < start + n) : src t ≠ v := by
  obtain ⟨u, rfl⟩ := Nat.exists_eq_add_of_le h1
  rw [h u (by omega)]
  exact Bool.not_ne_self v

/-- A level first seen after `j` ticks, before the counter passes the budget, ends the wait there (R126, R127). -/
theorem waitLevelUntil_after {src : Nat → Bool} {v : Bool} {budget j : Nat} (hb : budget < 65536) (hs : s.epoch ≤ s.time)
    (hj : s.time + j ≤ s.epoch + budget) (hno : ∀ u, u < j → src (s.time + u) = !v) (hd : src (s.time + j) = v) :
    waitLevelUntil params e src v budget s = (true, { s with time := s.time + j, draws := s.draws + 1 }) := by
  have met := scan_met (p := params) hb hd hj (budget + 1) s.time hs (Nat.le_add_right ..) (by omega) (ne_of_opposite hno)
  rw [waitLevelUntil, met]
  exact congrArg (Prod.mk true) (latency_params _)

/-- A level not seen until the counter has reached the budget ends the wait there (R126, R127). -/
theorem waitLevelUntil_never {src : Nat → Bool} {v : Bool} {budget j : Nat} (hb : budget < 65536) (hs : s.epoch ≤ s.time)
    (hj : s.time + j = s.epoch + budget) (hno : ∀ u, u ≤ j → src (s.time + u) = !v) :
    waitLevelUntil params e src v budget s = (false, { s with time := s.time + j }) := by
  have hne := ne_of_opposite fun u (hu : u < j + 1) => hno u (Nat.le_of_lt_succ hu)
  rw [waitLevelUntil, scan_timeout hb (budget + 1) s.time hs (by omega) (by omega) fun t h1 h2 => hne t h1 (by omega), hj]

/-- The counter reads the ticks since its epoch, below the wrap (R123). -/
theorem elapsed_params_of_time {d : Nat} (h : s.time = s.epoch + d) (hd : d < 65536) : elapsed params s = d := by
  have count : elapsed params s = s.time - s.epoch :=
    counterAt_of_lt params _ _ (by omega) (show s.time - s.epoch < 65536 by omega)
  rw [count, h, Nat.add_sub_cancel_left]

/-! ## The conversion -/

/-- The counter does not wrap during a measurement, so the difference is the echo's width (R176). -/
theorem counterDiff_params {r w : Nat} (h : r + w < 65536) : counterDiff params (r + w) r = w := by
  change (r + w + (65536 - r % 65536)) % 65536 = w
  omega

/-- A width of 1235 ticks is the last below the ceiling (R105, R176, R177). -/
theorem rangeResult_params_toNat (w : Nat) : (rangeResult params w).toNat = if w ≤ 1235 then w * 17 / 1000 else 999 := by
  change (if w * 17 / 1000 > 20 then 999#16 else BitVec.ofNat 16 (w * 17 / 1000)).toNat = _
  by_cases hw : w ≤ 1235
  · rw [if_neg (by omega), if_pos hw, BitVec.toNat_ofNat, Nat.mod_eq_of_lt (by omega)]
  · rw [if_pos (by omega), if_neg hw]
    rfl

/-! ## The echo waits, from the tick at which the counter restarts -/

/-- No rise within the budget: the first wait times out (R174). -/
theorem rngEcho_of_no_rise (hs : s.epoch = s.time) (hlow : ∀ u, u ≤ 30000 → e.echo (s.time + u) = false) :
    rngEcho params e s = (0, { s with time := s.time + 30000 }) := by
  have rise : waitLevelUntil params e e.echo true params.rngTimeout s = _ :=
    waitLevelUntil_never (j := 30000) (by decide) (le_of_eq hs) (by rw [hs]; rfl) hlow
  rw [rngEcho, rise]
  rfl

variable {r : Nat}

/-- A rise within the budget ends the first wait there, with the ticks since the pulse on the counter (R174). -/
theorem echoRise_after (hs : s.epoch = s.time) (hr : r ≤ 30000) (hlow : ∀ u, u < r → e.echo (s.time + u) = false)
    (hrise : e.echo (s.time + r) = true) :
    waitLevelUntil params e e.echo true params.rngTimeout s =
        (true, { s with time := s.time + r, draws := s.draws + 1 }) ∧
      elapsed params { s with time := s.time + r, draws := s.draws + 1 } = r :=
  ⟨waitLevelUntil_after (by decide) (le_of_eq hs) (by rw [hs]; exact Nat.add_le_add_left hr _) hlow hrise,
    elapsed_params_of_time (by rw [hs]) (by omega)⟩

/-- No fall within the budget after the rise: the second wait times out (R175). -/
theorem rngEcho_of_no_fall (hs : s.epoch = s.time) (hr : r ≤ 30000) (hlow : ∀ u, u < r → e.echo (s.time + u) = false)
    (hhigh : ∀ u, u ≤ 30000 → e.echo (s.time + r + u) = true) :
    rngEcho params e s = (999, { s with time := s.time + r + 30000, draws := s.draws + 1 }) := by
  obtain ⟨rise, count⟩ := echoRise_after hs hr hlow (hhigh 0 (Nat.zero_le _))
  have fall : waitLevelUntil params e e.echo false (r + params.rngTimeout)
      { s with time := s.time + r, draws := s.draws + 1 } = _ :=
    waitLevelUntil_never (j := 30000) (show r + 30000 < 65536 by omega) (show s.epoch ≤ s.time + r by omega)
      (show s.time + r + 30000 = s.epoch + (r + 30000) by omega) hhigh
  rw [rngEcho, rise]
  dsimp only
  rw [count, fall]
  rfl

/-- An echo that rises and falls within the budgets is converted by its width (R176, R177). -/
theorem rngEcho_of_fall {w : Nat} (hs : s.epoch = s.time) (hr : r ≤ 30000) (hpos : 0 < w) (hw : w ≤ 30000)
    (hlow : ∀ u, u < r → e.echo (s.time + u) = false) (hhigh : ∀ u, u < w → e.echo (s.time + r + u) = true)
    (hfall : e.echo (s.time + r + w) = false) :
    rngEcho params e s = (rangeResult params w, { s with time := s.time + r + w, draws := s.draws + 2 }) := by
  obtain ⟨rise, count⟩ := echoRise_after hs hr hlow (hhigh 0 hpos)
  have fall : waitLevelUntil params e e.echo false (r + params.rngTimeout)
      { s with time := s.time + r, draws := s.draws + 1 } = _ :=
    waitLevelUntil_after (j := w) (show r + 30000 < 65536 by omega) (show s.epoch ≤ s.time + r by omega)
      (show s.time + r + w ≤ s.epoch + (r + 30000) by omega) hhigh hfall
  have count' : elapsed params { s with time := s.time + r + w, draws := s.draws + 1 + 1 } = r + w :=
    elapsed_params_of_time (show s.time + r + w = s.epoch + (r + w) by omega) (by omega)
  rw [rngEcho, rise]
  dsimp only
  rw [count, fall]
  dsimp only
  rw [count', counterDiff_params (by omega)]

/-! ## The command -/

/-- The command reports what the echo waits report and succeeds at their last tick, but for the duration draw (R172, R179,
R331). -/
theorem execFor_rngMeasure_of_rngEcho {v : Word} {u : State} (h : rngEcho params e (rngTrigger params e s) = (v, u)) :
    ∃ t, execFor params e .rngMeasure s = .next t ∧ t.result = v ∧ t.stOk = true ∧
      t.time = u.time + e.duration (t.draws - 1) := by
  refine ⟨rngMeasure params e s, rfl, ?_⟩
  rw [rngMeasure_params, h]
  exact ⟨rfl, rfl, rfl⟩

/-- The counter restarts at the end of the pulse (R172). -/
theorem rngTrigger_epoch : (rngTrigger params e s).epoch = (rngTrigger params e s).time := rfl

end

/-- Settles O26: the first wait ends at the rise, the second at the fall, and the width between them is converted. -/
theorem echoIsMeasured : Obligations.EchoIsMeasured := by
  intro e s r w hr hpos hw hlow hhigh hfall
  rw [← rngTrigger_params_time (e := e) s] at hlow hhigh hfall ⊢
  obtain ⟨t, hexec, hresult, hok, htime⟩ :=
    execFor_rngMeasure_of_rngEcho (rngEcho_of_fall rngTrigger_epoch hr hpos hw hlow hhigh hfall)
  exact ⟨t, hexec, by rw [hresult, rangeResult_params_toNat], hok, htime⟩

/-- Settles O27: without a rise the first wait times out, without a fall the second. -/
theorem missingEdgesGiveTheSentinels : Obligations.MissingEdgesGiveTheSentinels := by
  intro e s
  rw [← Nat.add_assoc s.time 12 30000, ← rngTrigger_params_time (e := e) s]
  exact ⟨fun hlow => execFor_rngMeasure_of_rngEcho (rngEcho_of_no_rise rngTrigger_epoch hlow),
    fun r hr hlow hhigh => execFor_rngMeasure_of_rngEcho (rngEcho_of_no_fall rngTrigger_epoch hr hlow hhigh)⟩

end Sys2Proof.Machine

/-! Proofs for 43_display_framebuffer.md: clearing, pixels out of bounds, the cursor, and the glyph box painted pixel by pixel
(R192 to R204). -/

namespace Sys2Proof.Machine

/-! ## The commands without a glyph -/

/-- Settles O32: the command stores its two operands and succeeds. -/
theorem setCursorStoresItsOperands : Obligations.SetCursorStoresItsOperands :=
  ⟨rfl, fun _ => rfl⟩

/-- A pixel write out of bounds changes nothing (R195). -/
theorem setPixel_of_out_of_bounds {p : Params} {x y : Nat} (h : p.width ≤ x ∨ p.height ≤ y) (k : Bool) (s : State) :
    setPixel p x y k s = s :=
  if_pos h

/-- Settles O31: the pixel write is ignored, and the command ends as every one that succeeds. -/
theorem setPixelOutOfBoundsIsIgnored : Obligations.SetPixelOutOfBoundsIsIgnored := by
  intro s h
  have ignored : dspSetPixel params env s = succeed env s := congrArg _ (setPixel_of_out_of_bounds h ..)
  exact congrArg Host.Outcome.next ignored

/-- A byte after a clear: zero in the framebuffer, as before past its end (R192). -/
theorem fbRead_fbClear (p : Params) (s : State) (i : Nat) :
    fbRead (fbClear p s) i = if i < fbSize p then 0 else fbRead s i :=
  Memory.read_clear ..

/-- Every pixel of a cleared framebuffer is off (R61, R192). -/
theorem pixelAt_fbClear {p : Params} (h8 : p.height % 8 = 0) (s : State) {x y : Nat} (hx : x < p.width) (hy : y < p.height) :
    pixelAt p (fbClear p s) x y = false := by
  rw [pixelAt, fbRead_fbClear, if_pos (pixelIndex_lt p x y hx hy h8)]
  exact BitVec.getLsbD_zero

/-- Settles O29: every pixel lies in a byte of the framebuffer, and the clear leaves these zero. -/
theorem clearZeroesTheFramebuffer : Obligations.ClearZeroesTheFramebuffer := by
  refine ⟨rfl, fun s => ⟨dspClear params env s, rfl, fun i hi => ?_, fun i hi => ?_, fun x y hx hy => ?_, rfl⟩⟩
  · exact (fbRead_fbClear params s i).trans (if_pos hi)
  · exact (fbRead_fbClear params s i).trans (if_neg (Nat.not_lt.mpr hi))
  · exact pixelAt_fbClear (p := params) rfl s hx hy

/-! ## The glyph box -/

/-- The pixel of a glyph box in row `r`, column `c`: the colour where the glyph's bit is set, its complement where it is not
(R200, R201). -/
def glyphPixel (p : Params) (g : Byte) (k : Bool) (r c : Nat) : Bool :=
  if p.glyph g r c then k else !k

theorem paintPixel_eq (p : Params) (g : Byte) (k : Bool) (r : Nat) (s : State) (c : Nat) :
    paintPixel p g k r s c = setPixel p (s.curX.toNat + c) (s.curY.toNat + r) (glyphPixel p g k r c) s := rfl

/-- Where only the framebuffer has changed, the cursor is where it was. -/
theorem cursor_of_fb_frame {s t : State} (h : t = { s with fb := t.fb }) : t.curX = s.curX ∧ t.curY = s.curY := by
  rw [h]; exact ⟨rfl, rfl⟩

section

variable {p : Params} {x y : Nat} (g : Byte) (k : Bool)

/-- The pixels after the first `n` of a row of a glyph box: clipped by the bounds of `x` and `y` alone (R200, R203). -/
theorem pixelAt_paintPixels (hx : x < p.width) (hy : y < p.height) (r : Nat) (s : State) (n : Nat) :
    pixelAt p ((List.range n).foldl (paintPixel p g k r) s) x y =
      if s.curX.toNat ≤ x ∧ x < s.curX.toNat + n ∧ y = s.curY.toNat + r then glyphPixel p g k r (x - s.curX.toNat)
      else pixelAt p s x y := by
  induction n with
  | zero => rw [if_neg (by omega)]; rfl
  | succ n ih =>
    obtain ⟨hcurX, hcurY⟩ := cursor_of_fb_frame (foldl_frame (paintPixel p g k r) (fun _ _ => setPixel_frame ..) (List.range n) s)
    rw [List.range_succ, List.foldl_concat, paintPixel_eq, hcurX, hcurY, pixelAt_setPixel p _ _ _ _ _ _ hx hy, ih]
    by_cases hlast : x = s.curX.toNat + n ∧ y = s.curY.toNat + r
    · obtain ⟨rfl, rfl⟩ := hlast
      rw [if_pos ⟨rfl, rfl⟩, if_pos (by omega), Nat.add_sub_cancel_left]
    · rw [if_neg hlast]
      exact if_congr (by omega) rfl rfl

/-- The pixels after the first `n` rows of a glyph box (R200, R203). -/
theorem pixelAt_paintRows (hx : x < p.width) (hy : y < p.height) (s : State) (n : Nat) :
    pixelAt p ((List.range n).foldl (paintRow p g k) s) x y =
      if s.curX.toNat ≤ x ∧ x < s.curX.toNat + p.fontW ∧ s.curY.toNat ≤ y ∧ y < s.curY.toNat + n
      then glyphPixel p g k (y - s.curY.toNat) (x - s.curX.toNat)
      else pixelAt p s x y := by
  induction n with
  | zero => rw [if_neg (by omega)]; rfl
  | succ n ih =>
    obtain ⟨hcurX, hcurY⟩ := cursor_of_fb_frame (foldl_frame (paintRow p g k) (paintRow_frame p g k) (List.range n) s)
    rw [List.range_succ, List.foldl_concat, paintRow, pixelAt_paintPixels g k hx hy, hcurX, hcurY, ih]
    by_cases hrow : y = s.curY.toNat + n
    · exact if_congr (by omega) (by rw [hrow, Nat.add_sub_cancel_left]) (if_neg (by omega))
    · rw [if_neg (by omega)]
      exact if_congr (by omega) rfl rfl

end

/-- Painting a glyph box touches no byte past the end of the framebuffer (R62, R203). -/
theorem fbRead_paintGlyph_of_le {p : Params} (h8 : p.height % 8 = 0) (g : Byte) (k : Bool) (s : State) {i : Nat}
    (hi : fbSize p ≤ i) : fbRead (paintGlyph p g k s) i = fbRead s i := by
  refine paintGlyph_keeps p (Memory.read · i = fbRead s i) (fun x y v u hu => ?_) g k s rfl
  refine (fbRead_setPixel p x y v u i).trans ((if_neg fun ⟨hx, hy, heq⟩ => ?_).trans hu)
  exact absurd (pixelIndex_lt p x y hx hy h8) (by omega)

/-! ## The character commands -/

theorem fbRead_dspWriteChar_of_le {p : Params} (h8 : p.height % 8 = 0) (e : Env) (s : State) {i : Nat}
    (hi : fbSize p ≤ i) : fbRead (dspWriteChar p e s) i = fbRead s i := by
  unfold dspWriteChar
  split
  · rfl
  · exact fbRead_paintGlyph_of_le h8 _ _ s hi

/-- In font 0 the command paints the box, advances the cursor and succeeds (R200, R202). -/
theorem dspWriteChar_of_font_zero {s : State} (h : s.arg1 = 0) (p : Params) (e : Env) :
    dspWriteChar p e s = succeed e (advanceCursor p
      { s with fb := (paintGlyph p (glyphCode p (operandCh s)) (operandColor s) s).fb }) := by
  rw [← paintGlyph_frame]
  exact if_neg (not_not_intro h)

theorem dspWriteChar_curX {s : State} (h : s.arg1 = 0) (p : Params) (e : Env) :
    (dspWriteChar p e s).curX = s.curX + BitVec.ofNat 16 p.fontW := by
  rw [dspWriteChar_of_font_zero h]; rfl

/-- In font 0 the pixels of the box are the glyph's, and every other pixel is as before (R200, R203). -/
theorem pixelAt_dspWriteChar {s : State} (h : s.arg1 = 0) (p : Params) (e : Env) {x y : Nat} (hx : x < p.width)
    (hy : y < p.height) :
    pixelAt p (dspWriteChar p e s) x y =
      if s.curX.toNat ≤ x ∧ x < s.curX.toNat + p.fontW ∧ s.curY.toNat ≤ y ∧ y < s.curY.toNat + p.fontH
      then glyphPixel p (glyphCode p (operandCh s)) (operandColor s) (y - s.curY.toNat) (x - s.curX.toNat)
      else pixelAt p s x y := by
  rw [dspWriteChar_of_font_zero h]
  exact pixelAt_paintRows _ _ hx hy s p.fontH

/-- In font 0 the command succeeds and touches only the framebuffer and `CUR_X` (R93, R200). -/
theorem dspWriteChar_frame {s : State} (h : s.arg1 = 0) (p : Params) (e : Env) :
    dspWriteChar p e s = { s with
      fb := (dspWriteChar p e s).fb, curX := (dspWriteChar p e s).curX, stOk := true, stIll := false, seq := .idle
      time := s.time + e.duration s.draws, draws := s.draws + 1 } := by
  rw [dspWriteChar_of_font_zero h]; rfl

/-- Settles O33: the box is painted row by row, each pixel by pixel, and then the cursor moves. -/
theorem writeCharPaintsTheBox : Obligations.WriteCharPaintsTheBox := by
  intro s hfont
  refine ⟨dspWriteChar params env s, rfl, fun x y => pixelAt_dspWriteChar hfont params env,
    fun i hi => fbRead_dspWriteChar_of_le rfl env s hi, ?_, dspWriteChar_frame hfont params env⟩
  rw [dspWriteChar_curX hfont, BitVec.toNat_add]; rfl

theorem fbRead_dspWriteString_of_le {p : Params} (h8 : p.height % 8 = 0) (e : Env) (codes : List Byte) (font color : Word)
    (s : State) {i : Nat} (hi : fbSize p ≤ i) : fbRead (dspWriteString p e codes font color s) i = fbRead s i := by
  induction codes generalizing s with
  | nil => rfl
  | cons ch codes ih => exact (ih (writeCharLine p e font color s ch)).trans (fbRead_dspWriteChar_of_le h8 e _ hi)

/-- In font 0 each code advances the cursor by the glyph width, modulo 65536 (R202, R204). -/
theorem dspWriteString_curX (p : Params) (e : Env) (codes : List Byte) (color : Word) (s : State) :
    (dspWriteString p e codes 0 color s).curX = s.curX + BitVec.ofNat 16 (p.fontW * codes.length) := by
  induction codes generalizing s with
  | nil => exact (BitVec.add_zero _).symm
  | cons ch codes ih =>
    have line : (writeCharLine p e 0 color s ch).curX = s.curX + BitVec.ofNat 16 p.fontW := dspWriteChar_curX rfl p e
    calc (dspWriteString p e (ch :: codes) 0 color s).curX
      _ = (writeCharLine p e 0 color s ch).curX + BitVec.ofNat 16 (p.fontW * codes.length) := ih _
      _ = s.curX + BitVec.ofNat 16 (p.fontW * (ch :: codes).length) := by
        rw [line, BitVec.add_assoc, ← BitVec.ofNat_add, List.length_cons, Nat.mul_succ, Nat.add_comm]

/-- Settles O36: code by code for the cursor, and the frame of the string line for the rest. -/
theorem writeStringAdvancesTheCursor : Obligations.WriteStringAdvancesTheCursor := by
  intro s codes color
  have frame := dspWriteString_frame params env codes 0 color s
  have hcurY : (dspWriteString params env codes 0 color s).curY = s.curY := by rw [frame]; rfl
  refine ⟨dspWriteString params env codes 0 color s, rfl, ?_, hcurY,
    fun i hi => fbRead_dspWriteString_of_le rfl env codes 0 color s hi, frame⟩
  rw [dspWriteString_curX, BitVec.toNat_add, BitVec.toNat_ofNat, Nat.add_mod_mod]; rfl

end Sys2Proof.Machine

/-! Proofs for 44_display_bus.md: which address a probe binds, what an init sends and clears, what a flush sends (R230 to R243,
R266). -/

namespace Sys2Proof.Machine

/-- `s` with ready-queries on record, at tick `now` and with `n` draws taken (R221). -/
def queried (events : List BusEvent) (now n : Nat) (s : State) : State :=
  { s with trace := s.trace ++ events, time := now, draws := n }

/-- `s` with address `a` bound (R230). -/
def boundTo (a : Addr7) (s : State) : State :=
  { s with boundValid := true, boundAddr := a }

theorem queried_queried (ev1 ev2 : List BusEvent) (now1 n1 now2 n2 : Nat) (s : State) :
    queried ev2 now2 n2 (queried ev1 now1 n1 s) = queried (ev1 ++ ev2) now2 n2 s := by
  unfold queried
  rw [List.append_assoc]

section

variable {p : Params} {e : Env} {s u : State}

/-! ## The queries of a probe -/

/-- A ready-query is on record with its answer (R221). -/
theorem busReady_of_ack {a : Addr7} {r : Bool} (h : e.ack s.draws a = r) :
    busReady e a s = (r, queried [.ready a r] (s.time + e.duration s.draws) (s.draws + 1) s) := by
  rw [busReady_eq, h]; rfl

/-- The first acknowledge binds (R231). -/
theorem queryTrials_of_ack {a : Addr7} {n : Nat} (hn : 0 < n) (h : e.ack s.draws a = true) :
    ∃ now, queryTrials e a n s = (true, boundTo a (queried [.ready a true] now (s.draws + 1) s)) := by
  obtain ⟨n, rfl⟩ := Nat.exists_eq_add_of_le' hn
  exact ⟨_, by rw [queryTrials, busReady_of_ack h]; rfl⟩

/-- Without an acknowledge every trial is made, and nothing is bound (R231). -/
theorem queryTrials_of_no_ack {a : Addr7} (n : Nat) (h : ∀ k, k < n → e.ack (s.draws + k) a = false) :
    ∃ now, queryTrials e a n s = (false, queried (List.replicate n (.ready a false)) now (s.draws + n) s) ∧ s.time ≤ now := by
  induction n generalizing s with
  | zero => exact ⟨s.time, by simp [queryTrials, queried], le_refl _⟩
  | succ n ih =>
    have first : e.ack s.draws a = false := h 0 n.succ_pos
    obtain ⟨now, hrest, hle⟩ := ih (s := queried [.ready a false] (s.time + e.duration s.draws) (s.draws + 1) s)
      fun k hk => by
        have later := h (k + 1) (Nat.succ_lt_succ hk)
        rwa [Nat.add_comm k, ← Nat.add_assoc] at later
    refine ⟨now, ?_, (Nat.le_add_right ..).trans hle⟩
    rw [queryTrials, busReady_of_ack first]
    dsimp only
    rw [hrest, queried_queried, List.replicate_succ, Nat.add_comm n, ← Nat.add_assoc]
    rfl

/-- The primary address is bound if it acknowledges the first query (R230). -/
theorem probe_of_primary (htrials : 0 < p.probeTrials) (h : e.ack s.draws p.addrPrimary = true) :
    ∃ now n, probe p e s = (true, boundTo p.addrPrimary (queried [.ready p.addrPrimary true] now n s)) := by
  obtain ⟨now, hprimary⟩ := queryTrials_of_ack htrials h
  exact ⟨now, _, by rw [probe, hprimary]⟩

/-- `s` at tick `now`, after all trials of the primary address without an acknowledge (R230). -/
def primarySilent (p : Params) (now : Nat) (s : State) : State :=
  queried (List.replicate p.probeTrials (.ready p.addrPrimary false)) now (s.draws + p.probeTrials) s

/-- If the primary address does not answer, the probe goes on with the trials of the secondary (R230). -/
theorem probe_of_primary_silent (hno : ∀ k, k < p.probeTrials → e.ack (s.draws + k) p.addrPrimary = false) :
    ∃ now, probe p e s = queryTrials e p.addrSecondary p.probeTrials (primarySilent p now s) ∧ s.time ≤ now := by
  obtain ⟨now, hprimary, hle⟩ := queryTrials_of_no_ack p.probeTrials hno
  exact ⟨now, by rw [probe, hprimary]; rfl, hle⟩

/-- The secondary address is bound if the primary does not answer and it acknowledges its first query (R230). -/
theorem probe_of_secondary (htrials : 0 < p.probeTrials)
    (hno : ∀ k, k < p.probeTrials → e.ack (s.draws + k) p.addrPrimary = false)
    (h : e.ack (s.draws + p.probeTrials) p.addrSecondary = true) :
    ∃ now n, probe p e s = (true, boundTo p.addrSecondary
      (queried (List.replicate p.probeTrials (.ready p.addrPrimary false) ++ [.ready p.addrSecondary true]) now n s)) := by
  obtain ⟨now1, hprobe, _⟩ := probe_of_primary_silent hno
  obtain ⟨now2, hsecondary⟩ := queryTrials_of_ack (s := primarySilent p now1 s) htrials h
  exact ⟨now2, (primarySilent p now1 s).draws + 1, by rw [hprobe, hsecondary, primarySilent, queried_queried]⟩

/-- With no acknowledge all trials of both addresses are on record, the primary's first, and nothing is bound (R230, R231). -/
theorem probe_of_no_ack (hprimary : ∀ k, k < p.probeTrials → e.ack (s.draws + k) p.addrPrimary = false)
    (hsecondary : ∀ k, k < p.probeTrials → e.ack (s.draws + p.probeTrials + k) p.addrSecondary = false) :
    ∃ now n, probe p e s = (false, queried (List.replicate p.probeTrials (.ready p.addrPrimary false) ++
      List.replicate p.probeTrials (.ready p.addrSecondary false)) now n s) ∧ s.time ≤ now := by
  obtain ⟨now1, hprobe, hle1⟩ := probe_of_primary_silent hprimary
  obtain ⟨now2, hquery, hle2⟩ := queryTrials_of_no_ack (s := primarySilent p now1 s) p.probeTrials hsecondary
  exact ⟨now2, (primarySilent p now1 s).draws + p.probeTrials,
    by rw [hprobe, hquery, primarySilent, queried_queried], hle1.trans hle2⟩

/-- With one trial per address a probe has three outcomes, by the two answers (R230, log 9). -/
theorem probe_params_cases (e : Env) (s : State) :
    (e.ack s.draws params.addrPrimary = true ∧ ∃ now n, probe params e s =
      (true, boundTo params.addrPrimary (queried [.ready params.addrPrimary true] now n s))) ∨
    (e.ack s.draws params.addrPrimary = false ∧ e.ack (s.draws + 1) params.addrSecondary = true ∧ ∃ now n, probe params e s =
      (true, boundTo params.addrSecondary
        (queried [.ready params.addrPrimary false, .ready params.addrSecondary true] now n s))) ∨
    (e.ack s.draws params.addrPrimary = false ∧ e.ack (s.draws + 1) params.addrSecondary = false ∧ ∃ now n, probe params e s =
      (false, queried [.ready params.addrPrimary false, .ready params.addrSecondary false] now n s)) := by
  have onlyTrial {a : Addr7} {d : Nat} (h : e.ack d a = false) (k : Nat) (hk : k < params.probeTrials) :
      e.ack (d + k) a = false := by
    obtain rfl : k = 0 := Nat.lt_one_iff.mp hk
    exact h
  cases h1 : e.ack s.draws params.addrPrimary with
  | true => exact .inl ⟨rfl, probe_of_primary Nat.one_pos h1⟩
  | false =>
    cases h2 : e.ack (s.draws + 1) params.addrSecondary with
    | true => exact .inr (.inl ⟨rfl, rfl, probe_of_secondary Nat.one_pos (onlyTrial h1) h2⟩)
    | false =>
      obtain ⟨now, n, h, _⟩ := probe_of_no_ack (onlyTrial h1) (onlyTrial h2)
      exact .inr (.inr ⟨rfl, rfl, now, n, h⟩)

/-- A probe is queries and, exactly if it succeeds, a binding (R230, R231). -/
theorem probe_params_queried (e : Env) (s : State) :
    (∃ a events now n, probe params e s = (true, boundTo a (queried events now n s))) ∨
    (∃ events now n, probe params e s = (false, queried events now n s)) := by
  rcases probe_params_cases e s with ⟨_, now, n, h⟩ | ⟨_, _, now, n, h⟩ | ⟨_, _, now, n, h⟩
  · exact .inl ⟨_, _, now, n, h⟩
  · exact .inl ⟨_, _, now, n, h⟩
  · exact .inr ⟨_, now, n, h⟩

/-- If one of the addresses acknowledges its trial, the probe binds the first that does (R230, log 9). -/
theorem probe_params_of_ack
    (hack : e.ack s.draws params.addrPrimary = true ∨ e.ack (s.draws + 1) params.addrSecondary = true) :
    ∃ now n, probe params e s =
      (true, boundTo (if e.ack s.draws params.addrPrimary then params.addrPrimary else params.addrSecondary)
        (queried (if e.ack s.draws params.addrPrimary then [.ready params.addrPrimary true]
          else [.ready params.addrPrimary false, .ready params.addrSecondary true]) now n s)) := by
  rcases probe_params_cases e s with ⟨hprimary, h⟩ | ⟨hprimary, _, h⟩ | ⟨hprimary, hsecondary, _⟩
  · rwa [if_pos hprimary, if_pos hprimary]
  · rwa [if_neg (ne_true_of_eq_false hprimary), if_neg (ne_true_of_eq_false hprimary)]
  · exact absurd hack (not_or.mpr ⟨ne_true_of_eq_false hprimary, ne_true_of_eq_false hsecondary⟩)

/-! ## The commands, by how the probe ends -/

theorem dspProbe_of_success (hb : s.boundValid = false) (h : probe p e s = (true, u)) : dspProbe p e s = succeed e u := by
  rw [dspProbe, hb, h]; rfl

theorem dspProbe_of_failure (hb : s.boundValid = false) (h : probe p e s = (false, u)) : dspProbe p e s = fail e u := by
  rw [dspProbe, hb, h]; rfl

theorem dspInit_of_failure (hb : s.boundValid = false) (h : probe p e s = (false, u)) : dspInit p e s = fail e u := by
  rw [dspInit, hb, h]; rfl

/-- The bytes of every chunk of a cleared framebuffer are zero (R192, R242). -/
theorem chunkBytes_fbClear (s : State) {i : Nat} (hi : i < chunkCount p) :
    chunkBytes p (fbClear p s) i = List.replicate p.chunk 0 := by
  have inside (j : Nat) (hj : j < p.chunk) : p.chunk * i + j < fbSize p := calc
    p.chunk * i + j < p.chunk * (i + 1) := by rw [Nat.mul_succ]; omega
    _ ≤ p.chunk * chunkCount p := Nat.mul_le_mul_left _ hi
    _ ≤ fbSize p := Nat.mul_div_le ..
  refine List.eq_replicate_iff.mpr ⟨by simp [chunkBytes], fun b hb => ?_⟩
  obtain ⟨j, hj, rfl⟩ := List.mem_map.mp hb
  rw [fbRead_fbClear, if_pos (inside j (List.mem_range.mp hj))]

/-- From a successful probe an init sends the configuration, clears the framebuffer and flushes the zeros (R235, R238). -/
theorem dspInit_of_success (hb : s.boundValid = false) (h : probe p e s = (true, u)) :
    ∃ now n b, dspInit p e s = succeed e { fbClear p u with
      trace := u.trace ++ p.initSeq.map (fun c => .write u.boundAddr [p.ctrlCmd, c]) ++
        p.windowSeq.map (fun c => .write u.boundAddr [p.ctrlCmd, c]) ++
        List.replicate (chunkCount p) (.write u.boundAddr (p.ctrlData :: List.replicate p.chunk 0))
      time := now, draws := n, tbuf := b } := by
  obtain ⟨now1, n1, hconfig, _⟩ := sendCmds_eq p e p.initSeq u
  obtain ⟨now2, n2, b, hflush, _⟩ := flush_eq p e (fbClear p (sendCmds p e p.initSeq u))
  have chunks : (List.range (chunkCount p)).map (fun i => BusEvent.write u.boundAddr
        (p.ctrlData :: chunkBytes p (fbClear p (sendCmds p e p.initSeq u)) i)) =
      List.replicate (chunkCount p) (.write u.boundAddr (p.ctrlData :: List.replicate p.chunk 0)) := by
    refine List.eq_replicate_iff.mpr ⟨by simp, fun ev hev => ?_⟩
    obtain ⟨i, hi, rfl⟩ := List.mem_map.mp hev
    rw [chunkBytes_fbClear _ (List.mem_range.mp hi)]
  refine ⟨now2, n2, b, ?_⟩
  rw [dspInit, hb, h, ← chunks]
  dsimp only
  rw [hflush, hconfig]
  rfl

theorem dspFlush_of_bound (p : Params) (e : Env) (hb : s.boundValid = true) : dspFlush p e s = succeed e (flush p e s) :=
  if_pos hb

end

/-- Settles O37: one trial of the primary address, then one of the secondary. -/
theorem probeBindsTheFirstToAnswer : Obligations.ProbeBindsTheFirstToAnswer := by
  intro s hb
  refine ⟨dspProbe params env s, rfl, ?_⟩
  rcases probe_params_cases env s with ⟨hprimary, now, n, h⟩ | ⟨hprimary, hsecondary, now, n, h⟩ |
    ⟨hprimary, hsecondary, now, n, h⟩
  · rw [dspProbe_of_success hb h, if_pos hprimary]
    exact ⟨rfl, rfl, ⟨rfl, rfl, rfl, rfl⟩, rfl⟩
  · rw [dspProbe_of_success hb h, if_neg (ne_true_of_eq_false hprimary), if_pos hsecondary]
    exact ⟨rfl, rfl, ⟨rfl, rfl, rfl, rfl⟩, rfl⟩
  · rw [dspProbe_of_failure hb h, if_neg (ne_true_of_eq_false hprimary), if_neg (ne_true_of_eq_false hsecondary)]
    exact ⟨rfl, rfl, ⟨rfl, hb, rfl, rfl⟩, rfl⟩

/-- Settles O38: the clear follows exactly the successful probes, and the traffic does not reach the framebuffer. -/
theorem initClearsExactlyIfItBinds : Obligations.InitClearsExactlyIfItBinds := by
  intro s hb
  refine ⟨dspInit params env s, rfl, ?_⟩
  rcases probe_params_queried env s with ⟨a, events, now, n, h⟩ | ⟨events, now, n, h⟩
  · obtain ⟨now', n', b, hinit⟩ := dspInit_of_success hb h
    rw [hinit]
    exact ⟨rfl, fun _ i hi => (fbRead_fbClear params _ i).trans (if_pos hi), nofun,
      fun i hi => (fbRead_fbClear params _ i).trans (if_neg (Nat.not_lt.mpr hi)), rfl⟩
  · rw [dspInit_of_failure hb h]
    exact ⟨hb.symm, nofun, fun _ => ⟨rfl, rfl⟩, fun _ _ => rfl, rfl⟩

/-- Settles O39: both commands end in `fail` right after the queries. -/
theorem failedInitWritesNothing : Obligations.FailedInitWritesNothing := by
  intro p e s i hb hprimary hsecondary hi
  obtain ⟨now, n, h, hle⟩ := probe_of_no_ack hprimary hsecondary
  refine ⟨fail e (probe p e s).2, ?_, ?_⟩
  · rw [h]
    rcases hi with rfl | rfl
    · exact congrArg Host.Outcome.next (dspProbe_of_failure hb h)
    · exact congrArg Host.Outcome.next (dspInit_of_failure hb h)
  · rw [h, List.append_assoc]
    exact ⟨rfl, hle.trans (Nat.le_add_right ..)⟩

/-- Settles O40: the queries of the probe, then what an init sends after a successful one. -/
theorem initSendsConfigurationThenAFlush : Obligations.InitSendsConfigurationThenAFlush := by
  intro e s hb hack
  obtain ⟨now, n, h⟩ := probe_params_of_ack hack
  obtain ⟨now', n', b, hinit⟩ := dspInit_of_success hb h
  refine ⟨dspInit params e s, rfl, ?_⟩
  rw [hinit]
  exact ⟨rfl, rfl, rfl, rfl, rfl, rfl⟩

/-- Settles O41: the command is one flush and the end of a command that succeeds. -/
theorem flushSendsWindowThenChunks : Obligations.FlushSendsWindowThenChunks := by
  intro s hb
  obtain ⟨now, n, b, hflush, _⟩ := flush_eq params env s
  refine ⟨dspFlush params env s, rfl, ?_⟩
  rw [dspFlush_of_bound params env hb, hflush]
  exact ⟨rfl, rfl⟩

end Sys2Proof.Machine
